-- ==== Sys2Proof/Word.lean ====
section
/-! DEFINITION. The machine's word types (00_scope.md R8, 10_state.md R34, 20_memory.md R101). -/

namespace Sys2Proof

/-- One byte of data memory, and the width of every operation (R8). -/
abbrev Byte := BitVec 8

/-- An address of data memory: nine bits, four banks of 128 (R101). -/
abbrev DataAddr := BitVec 9

/-- A word address of program memory: PC<12:0> (R34). -/
abbrev CodeAddr := BitVec 13

/-- One instruction word (R140). -/
abbrev InsnWord := BitVec 14

end Sys2Proof
end

