-- ==== Sys2Proof/Syntax.lean ====
section
/-! DEFINITION. The instruction set: one constructor per row of spec/opcode_table.json (30_encoding.md R140-R151). -/

namespace Sys2Proof

/-- The destination select `d` (R148): 0 places the result in W, 1 in register f. -/
inductive Dest where
  | toW
  | toF
deriving DecidableEq, Repr

/-- An instruction. Operands have the widths of their fields (R148, R149): `f` names a file register within a bank,
`b` a bit, `k` a literal or a code address. Don't-care bits are no operands: words that differ only there are
the same instruction (R153). -/
inductive Instr where
  -- byte-oriented file register operations (40_byte_oriented.md)
  | addwf (f : BitVec 7) (d : Dest)
  | andwf (f : BitVec 7) (d : Dest)
  | clrf (f : BitVec 7)
  | clrw
  | comf (f : BitVec 7) (d : Dest)
  | decf (f : BitVec 7) (d : Dest)
  | decfsz (f : BitVec 7) (d : Dest)
  | incf (f : BitVec 7) (d : Dest)
  | incfsz (f : BitVec 7) (d : Dest)
  | iorwf (f : BitVec 7) (d : Dest)
  | movf (f : BitVec 7) (d : Dest)
  | movwf (f : BitVec 7)
  | nop
  | rlf (f : BitVec 7) (d : Dest)
  | rrf (f : BitVec 7) (d : Dest)
  | subwf (f : BitVec 7) (d : Dest)
  | swapf (f : BitVec 7) (d : Dest)
  | xorwf (f : BitVec 7) (d : Dest)
  -- bit-oriented file register operations (41_bit_oriented.md)
  | bcf (f : BitVec 7) (b : BitVec 3)
  | bsf (f : BitVec 7) (b : BitVec 3)
  | btfsc (f : BitVec 7) (b : BitVec 3)
  | btfss (f : BitVec 7) (b : BitVec 3)
  -- literal and control operations (42_literal_control.md)
  | addlw (k : Byte)
  | andlw (k : Byte)
  | call (k : BitVec 11)
  | clrwdt
  | goto (k : BitVec 11)
  | iorlw (k : Byte)
  | movlw (k : Byte)
  | retfie
  | retlw (k : Byte)
  | ret
  | sleep
  | sublw (k : Byte)
  | xorlw (k : Byte)
  | option
deriving DecidableEq, Repr

end Sys2Proof
end

