-- ==== Sys2Proof/WellFormed.lean ====
section
/-! DEFINITION. Operand ranges (30_encoding.md R148, R149, R164): what the operand numbers of a statement must satisfy
before they are the fields of an instruction word. -/

namespace Sys2Proof

/-- The numbers written after a mnemonic, by format (R164). -/
inductive Operands where
  /-- FIXED: no operand. -/
  | none
  /-- BYTE-F: a file register. -/
  | file (f : Nat)
  /-- BYTE: a file register and a destination. -/
  | fileDest (f d : Nat)
  /-- BIT: a file register and a bit number. -/
  | fileBit (f b : Nat)
  /-- LIT: an eight-bit literal. -/
  | lit (k : Nat)
  /-- JUMP: an eleven-bit code address. -/
  | target (k : Nat)
deriving DecidableEq, Repr

/-- "0 ≤ f ≤ 127" (R148). -/
def Operands.fileOk (f : Nat) : Bool := f ≤ 127

/-- "d ∈ [0,1]" (R148). -/
def Operands.destOk (d : Nat) : Bool := d ≤ 1

/-- "0 ≤ b ≤ 7" (R148; BTFSS's "b < 7" is a misprint, 90_conflicts.md C4). -/
def Operands.bitOk (b : Nat) : Bool := b ≤ 7

/-- "0 ≤ k ≤ 255" (R149). -/
def Operands.litOk (k : Nat) : Bool := k ≤ 255

/-- "0 ≤ k ≤ 2047" (R149). -/
def Operands.targetOk (k : Nat) : Bool := k ≤ 2047

/-- Every operand is in the range its page gives. -/
def Operands.wellFormed : Operands → Bool
  | .none => true
  | .file f => fileOk f
  | .fileDest f d => fileOk f && destOk d
  | .fileBit f b => fileOk f && bitOk b
  | .lit k => litOk k
  | .target k => targetOk k

/-- The number of a destination select (R148). -/
def Dest.toNat : Dest → Nat
  | .toW => 0
  | .toF => 1

/-- The operand numbers of an instruction, in the order the assembler writes them (R164). -/
def Instr.operands : Instr → Operands
  | .addwf f d | .andwf f d | .comf f d | .decf f d | .decfsz f d | .incf f d | .incfsz f d | .iorwf f d
  | .movf f d | .rlf f d | .rrf f d | .subwf f d | .swapf f d | .xorwf f d => .fileDest f.toNat d.toNat
  | .clrf f | .movwf f => .file f.toNat
  | .bcf f b | .bsf f b | .btfsc f b | .btfss f b => .fileBit f.toNat b.toNat
  | .addlw k | .andlw k | .iorlw k | .movlw k | .retlw k | .sublw k | .xorlw k => .lit k.toNat
  | .call k | .goto k => .target k.toNat
  | .clrw | .nop | .clrwdt | .retfie | .ret | .sleep | .option => .none

/-- An instruction is well formed when its operands are in range. The operands of `Instr` have the widths of their
fields, so every instruction is: Laws/PerInstr.lean says so constructor by constructor. -/
abbrev Instr.WellFormed (i : Instr) : Prop := i.operands.wellFormed = true

end Sys2Proof
end

