-- ==== Sys2Proof/Decode.lean ====
section
/-! DEFINITION. Instruction words to instructions and back (30_encoding.md R140-R168). -/

namespace Sys2Proof

/-- The destination select of bit 7 (R148). -/
def Dest.ofBit (d : Bool) : Dest := if d then .toF else .toW

/-- The FIXED group, words 0000h to 007Fh (R151). NOP's bits 6:5 are don't-cares (R153); TRIS is not admitted
(R160, D22). -/
def decodeFixed (low : BitVec 7) : Option Instr :=
  if low.extractLsb' 0 5 = 0 then some .nop
  else if low = 0x08 then some .ret
  else if low = 0x09 then some .retfie
  else if low = 0x62 then some .option
  else if low = 0x63 then some .sleep
  else if low = 0x64 then some .clrwdt
  else none

/-- Words with bits 13:12 = 00 (R150): `op` is bits 11:8, `hi` bit 7, `f` bits 6:0. -/
def decodeByte (op : BitVec 4) (hi : Bool) (f : BitVec 7) : Option Instr :=
  match op.toNat with
  | 0x0 => if hi then some (.movwf f) else decodeFixed f
  | 0x1 => if hi then some (.clrf f) else if f = 0x03 then some .clrw else none
  | 0x2 => some (.subwf f (.ofBit hi))
  | 0x3 => some (.decf f (.ofBit hi))
  | 0x4 => some (.iorwf f (.ofBit hi))
  | 0x5 => some (.andwf f (.ofBit hi))
  | 0x6 => some (.xorwf f (.ofBit hi))
  | 0x7 => some (.addwf f (.ofBit hi))
  | 0x8 => some (.movf f (.ofBit hi))
  | 0x9 => some (.comf f (.ofBit hi))
  | 0xA => some (.incf f (.ofBit hi))
  | 0xB => some (.decfsz f (.ofBit hi))
  | 0xC => some (.rrf f (.ofBit hi))
  | 0xD => some (.rlf f (.ofBit hi))
  | 0xE => some (.swapf f (.ofBit hi))
  | _ => some (.incfsz f (.ofBit hi))

/-- Words with bits 13:12 = 01 (R150): `op` is bits 11:10. -/
def decodeBit (op : BitVec 2) (b : BitVec 3) (f : BitVec 7) : Instr :=
  match op.toNat with
  | 0 => .bcf f b
  | 1 => .bsf f b
  | 2 => .btfsc f b
  | _ => .btfss f b

/-- Words with bits 13:12 = 11 (R150, don't-cares R153): `op` is bits 11:8; 1011 is not assigned (R158). -/
def decodeLit (op : BitVec 4) (k : Byte) : Option Instr :=
  match op.toNat with
  | 0x0 | 0x1 | 0x2 | 0x3 => some (.movlw k)
  | 0x4 | 0x5 | 0x6 | 0x7 => some (.retlw k)
  | 0x8 => some (.iorlw k)
  | 0x9 => some (.andlw k)
  | 0xA => some (.xorlw k)
  | 0xC | 0xD => some (.sublw k)
  | 0xE | 0xF => some (.addlw k)
  | _ => none

/-- The instruction of a word; `none` for each of the 502 words that no row lists (R150-R159). The machine stops on
these by name, `Fault.unlistedOpcode` (D7). -/
def decode (w : InsnWord) : Option Instr :=
  match (w.extractLsb' 12 2).toNat with
  | 0 => decodeByte (w.extractLsb' 8 4) (w.getLsbD 7) (w.extractLsb' 0 7)
  | 1 => some (decodeBit (w.extractLsb' 10 2) (w.extractLsb' 7 3) (w.extractLsb' 0 7))
  | 2 => some (if w.getLsbD 11 then .goto (w.extractLsb' 0 11) else .call (w.extractLsb' 0 11))
  | _ => decodeLit (w.extractLsb' 8 4) (w.extractLsb' 0 8)

/-- The bit of a destination select. -/
def Dest.bit : Dest → BitVec 1
  | .toW => 0
  | .toF => 1

/-- Format BYTE: `00 oooo dfff ffff` (R141). -/
def encodeFD (op : BitVec 4) (f : BitVec 7) (d : Dest) : InsnWord := 0b00#2 ++ op ++ d.bit ++ f

/-- Format BYTE-F: bit 7 is 1 (R142). -/
def encodeF (op : BitVec 4) (f : BitVec 7) : InsnWord := 0b00#2 ++ op ++ 1#1 ++ f

/-- Format BIT: `01 oobb bfff ffff` (R143). -/
def encodeFB (op : BitVec 2) (f : BitVec 7) (b : BitVec 3) : InsnWord := 0b01#2 ++ op ++ b ++ f

/-- Format LIT: `11 oooo kkkk kkkk` (R144). -/
def encodeK (op : BitVec 4) (k : Byte) : InsnWord := 0b11#2 ++ op ++ k

/-- The word the assembler emits (R141-R146, R168); don't-care bits assemble as 0 (R153). -/
def encode : Instr → InsnWord
  | .addwf f d => encodeFD 0b0111#4 f d
  | .andwf f d => encodeFD 0b0101#4 f d
  | .clrf f => encodeF 0b0001#4 f
  | .clrw => 0b00000100000011#14
  | .comf f d => encodeFD 0b1001#4 f d
  | .decf f d => encodeFD 0b0011#4 f d
  | .decfsz f d => encodeFD 0b1011#4 f d
  | .incf f d => encodeFD 0b1010#4 f d
  | .incfsz f d => encodeFD 0b1111#4 f d
  | .iorwf f d => encodeFD 0b0100#4 f d
  | .movf f d => encodeFD 0b1000#4 f d
  | .movwf f => encodeF 0b0000#4 f
  | .nop => 0b00000000000000#14
  | .rlf f d => encodeFD 0b1101#4 f d
  | .rrf f d => encodeFD 0b1100#4 f d
  | .subwf f d => encodeFD 0b0010#4 f d
  | .swapf f d => encodeFD 0b1110#4 f d
  | .xorwf f d => encodeFD 0b0110#4 f d
  | .bcf f b => encodeFB 0b00#2 f b
  | .bsf f b => encodeFB 0b01#2 f b
  | .btfsc f b => encodeFB 0b10#2 f b
  | .btfss f b => encodeFB 0b11#2 f b
  | .addlw k => encodeK 0b1110#4 k
  | .andlw k => encodeK 0b1001#4 k
  | .call k => 0b100#3 ++ k
  | .clrwdt => 0b00000001100100#14
  | .goto k => 0b101#3 ++ k
  | .iorlw k => encodeK 0b1000#4 k
  | .movlw k => encodeK 0b0000#4 k
  | .retfie => 0b00000000001001#14
  | .retlw k => encodeK 0b0100#4 k
  | .ret => 0b00000000001000#14
  | .sleep => 0b00000001100011#14
  | .sublw k => encodeK 0b1100#4 k
  | .xorlw k => encodeK 0b1010#4 k
  | .option => 0b00000001100010#14

/-- The host's numbering of a table word: bit 0 is the least significant. An instruction is one 14-bit word, held
in program memory as a whole, so no byte order arises (20_memory.md R114); a number with a bit above bit 13
is no instruction word. -/
def decodeTableWord (nbits w : Nat) : Option Instr :=
  let v := w % 2 ^ nbits
  if v < 2 ^ 14 then decode (BitVec.ofNat 14 v) else none

end Sys2Proof
end

