-- ==== Sys2Proof/Config.lean ====
section
/-! DEFINITION. The parameters of the model (00_scope.md R8, R9): those with a recommended value are definitions, the
configuration bits and what the spec leaves open are constants without a body, of which nothing but the type is known. -/

namespace Sys2Proof

/-! ## Parameters with a value -/

/-- PROG_WORDS, the implemented words of program memory: 1024, from address 0000h (R8). -/
def Config.progWords : Nat := 0x400

/-- The width of SP: STACK_DEPTH is a power of two, so that SP wraps by itself (10_state.md R40-R42). -/
abbrev Config.spWidth : Nat := 3

/-- STACK_DEPTH, the entries of the return stack: 8 (R9, D3). -/
abbrev Config.stackDepth : Nat := 2 ^ Config.spWidth

/-- RESET_VECTOR (R9, D8). -/
def Config.resetVector : CodeAddr := 0x0000

/-- INT_VECTOR (R9, D8). -/
def Config.intVector : CodeAddr := 0x0004

/-- TRISB_ADDR, OPEN in the spec: its recommended value, with the mirror 100h above it (R9, R66, 90_conflicts.md C12, D9;
DESIGN CHOICE, unsafe: log 11). -/
def Config.trisbAddr : DataAddr := 0x086

/-- What a fetch above implemented memory does (R9, D2). -/
inductive Config.FetchAbove where
  /-- The model stops. -/
  | fault
  /-- The address wraps modulo PROG_WORDS. -/
  | wrap
deriving DecidableEq, Repr

/-- FETCH_ABOVE_IMPLEMENTED: its recommended value (R9, D2; log 7). -/
def Config.fetchAboveImplemented : Config.FetchAbove := .fault

/-- UNLISTED_OPCODE: what a word that no row of the opcode table matches executes as. Its recommended value is a fault, the
answer none, for every word (R9, D7; log 8). -/
def Config.unlistedOpcode (_ : InsnWord) : Option Instr := none

/-! ## Configuration bits, out of every instruction's reach (70_reset_and_hazards.md R407, D14; log 12) -/

/-- WDTE, the watchdog's enable (R380). -/
opaque Config.wdte : Bool

/-- MCLRE: the MCLR pin resets the device (R400). -/
opaque Config.mclre : Bool

/-- BODEN: a supply dip resets the device (R400). -/
opaque Config.boden : Bool

/-- PWRTE, the power-up timer's enable. No instruction runs during its delay, so no rule of the model reads it (R406). -/
opaque Config.pwrte : Bool

/-- FOSC, the oscillator mode's number. It sets the length of an instruction cycle, which no rule of the model reads
(R22, R406, 90_conflicts.md C23). -/
opaque Config.fosc : Nat

/-! ## Open values -/

/-- DESIGN CHOICE (log 2), safe. The value the spec leaves open at the `n`th draw of a run: State counts the draws, so
two draws are unrelated. A single open bit is bit 0 of the byte drawn. -/
opaque Config.freeByte : Nat → Byte

end Sys2Proof
end

