-- ==== Sys2Proof/Machine/State.lean ====
section
/-! DEFINITION. The machine's state: everything the spec gives the machine (10_state.md), as plain data. -/

namespace Sys2Proof.Machine

/-- Cells of one memory by address: addresses strictly rising, no cell equal to what an unlisted address reads as
(Machine/Memory.lean). `Memory 8` is a list of `Host.Cell`. -/
abbrev Memory (width : Nat) := List (Nat × BitVec width)

/-- Timer0 and the prescaler it shares with the watchdog (10_state.md R57, R72, R73). -/
structure Timer0 where
  /-- TMR0. -/
  tmr0 : Byte
  /-- The prescaler's count: not readable, not writable (R72). -/
  prescaler : Byte
  /-- The model's own: the prescaler has been clocked since it was last cleared (U15; log 21). -/
  counted : Bool
  /-- Cycles for which the increment is still inhibited after a write (R73, R346). -/
  inhibit : Nat
  /-- The model's own: the instruction now running wrote TMR0, so the inhibit starts when it has ended (log 20). -/
  wrote : Bool
deriving DecidableEq, Repr

/-- Timer1 (10_state.md R58, R59, R75). -/
structure Timer1 where
  /-- TMR1L. -/
  lo : Byte
  /-- TMR1H. -/
  hi : Byte
  /-- T1CON: - - T1CKPS1 T1CKPS0 T1OSCEN T1SYNC TMR1CS TMR1ON. -/
  con : Byte
  /-- The prescaler's count (R75). -/
  pre : Nat
  /-- A falling edge has been seen since Timer1 was enabled as a counter (R352). -/
  armed : Bool
deriving DecidableEq, Repr

/-- Timer2 (10_state.md R60, R75). -/
structure Timer2 where
  /-- TMR2. -/
  tmr : Byte
  /-- PR2. -/
  pr : Byte
  /-- T2CON: - TOUTPS3 TOUTPS2 TOUTPS1 TOUTPS0 TMR2ON T2CKPS1 T2CKPS0. -/
  con : Byte
  /-- The prescaler's count. -/
  pre : Nat
  /-- The postscaler's count. -/
  post : Nat
deriving DecidableEq, Repr

/-- The Capture/Compare/PWM module (10_state.md R61, R76). -/
structure Ccp where
  /-- CCPR1L. -/
  lo : Byte
  /-- CCPR1H. -/
  hi : Byte
  /-- CCP1CON: - - CCP1X CCP1Y CCP1M3 CCP1M2 CCP1M1 CCP1M0. -/
  con : Byte
  /-- The 2-bit internal latch of the PWM duty cycle (R76). -/
  latch : BitVec 2
  /-- The output that drives pin RB3 in compare and PWM modes (R360, R363). -/
  out : Bool
  /-- Rising edges counted in the capture modes "every 4th" and "every 16th" (log 27). -/
  pre : Nat
deriving DecidableEq, Repr

/-- One byte of the receive buffer with what belongs to it (60_exceptions.md R366). -/
structure RxByte where
  data : Byte
  /-- The ninth bit, if nine bits were received. -/
  ninth : Option Bool
  /-- FERR: the stop bit was 0. -/
  framing : Bool
deriving DecidableEq, Repr

/-- The USART (10_state.md R62, R63, R77). -/
structure Usart where
  /-- RCSTA: SPEN RX9 SREN CREN ADEN FERR OERR RX9D. -/
  rcsta : Byte
  /-- TXSTA: CSRC TX9 TXEN SYNC - BRGH TRMT TX9D. -/
  txsta : Byte
  /-- SPBRG. -/
  spbrg : Byte
  /-- TXREG. -/
  txreg : Byte
  /-- What RCREG reads as before the first byte is received: its reset value, 00h (R63). -/
  rcreg : Byte
  /-- The receive buffer, oldest byte first, at most two (R366). RCIF is "it is not empty". -/
  fifo : List RxByte
  /-- RSR, the receive shift register (R77). -/
  rsr : BitVec 9
  /-- The model's own: a received byte has been read away, so the empty buffer reads any value (U19, log 34). -/
  drained : Bool
  /-- An overrun has stopped reception, and CREN has not been cleared and set again since (R366, log 55). -/
  rxStopped : Bool
  /-- TXREG holds a byte that has not moved to the shift register (R379). -/
  txFull : Bool
  /-- The transmit shift register, when a frame is in it (R379). -/
  tsr : Option (BitVec 9)
  /-- The model's own: frames handed to the environment, newest first (R379, log 35). -/
  sent : List (BitVec 9)
deriving DecidableEq, Repr

/-- The comparators and the voltage reference (10_state.md R67). -/
structure Comparators where
  /-- CMCON: C2OUT C1OUT C2INV C1INV CIS CM2 CM1 CM0. -/
  con : Byte
  /-- C2OUT, C1OUT at the last read of CMCON (60_exceptions.md R310). -/
  last : BitVec 2
  /-- The model's own: the last CPU step changed CM2:CM0, so a false interrupt may occur (U18, log 30). -/
  moved : Bool
  /-- VRCON. -/
  vrcon : Byte
deriving DecidableEq, Repr

/-- The EECON2 sequence detector: how far the instructions just executed, the one now running included, are through the
five of the required sequence (60_exceptions.md R373, D31). -/
inductive Unlock where
  | idle
  /-- `MOVLW 55h`. -/
  | loaded55
  /-- `MOVWF EECON2` after it. -/
  | wrote55
  /-- `MOVLW AAh` after that. -/
  | loadedAA
  /-- `MOVWF EECON2` after that. -/
  | wroteAA
  /-- `BSF EECON1, WR` after that: the sequence is complete. -/
  | complete
deriving DecidableEq, Repr

/-- An EEPROM write in progress (60_exceptions.md R374). -/
structure EeWrite where
  addr : BitVec 7
  data : Byte
  /-- Instruction cycles begun since WR was set, that of the setting instruction included. -/
  cycles : Nat
deriving DecidableEq, Repr

/-- The data EEPROM and its registers (10_state.md R64, R78). -/
structure Eeprom where
  /-- EEADR. -/
  adr : Byte
  /-- EEDATA. -/
  data : Byte
  /-- EECON1's WRERR (bit 3) and WREN (bit 2). RD reads 0 (R371) and WR is "a write is in progress" (R374). -/
  con1 : Byte
  /-- The array. -/
  cells : List Host.Cell
  /-- The write-sequence detector. -/
  unlock : Unlock
  /-- The write in progress; WR reads 1 exactly while there is one. -/
  write : Option EeWrite
deriving DecidableEq, Repr

/-- The ports (10_state.md R65, R66, R79) and the outside of the pins (D17, log 41). -/
structure Ports where
  /-- PORTA's output latch. -/
  latA : Byte
  /-- PORTB's output latch. -/
  latB : Byte
  trisA : Byte
  trisB : Byte
  /-- PORTB's pins when it was last read, bits 7:4 of which the change interrupt compares (R79, R315; log 33). -/
  change : Byte
  /-- The model's own: the level the outside gives each pin of PORTA. -/
  extA : Byte
  /-- The model's own: the level the outside gives each pin of PORTB. -/
  extB : Byte
  /-- The model's own: pins of PORTA where the outside overrides an output. -/
  forceA : Byte
  /-- The model's own: pins of PORTB where the outside overrides an output. -/
  forceB : Byte
  /-- The model's own: the Timer1 crystal's level. -/
  osc : Bool
  /-- The model's own: PORTA's pins at the last sample. -/
  seenA : Byte
  /-- The model's own: PORTB's pins at the last sample. -/
  seenB : Byte
  /-- The model's own: Timer1's external clock at the last sample. -/
  seenClk : Bool
deriving DecidableEq, Repr

/-- The flag register, if any, that the last instruction read, modified and wrote (20_memory.md R120, U12). -/
inductive Rmw where
  | none
  | intcon
  | pir1
deriving DecidableEq, Repr

/-- Something the environment does at an instruction boundary (D15, D17; log 1). -/
inductive EnvEvent where
  /-- The outside drives the pins: levels of PORTA and PORTB, and the pins where it overrides an output (D17). -/
  | pins (extA extB forceA forceB : Byte)
  /-- The Timer1 crystal takes a level (R352). -/
  | crystal (level : Bool)
  /-- The comparator outputs C2OUT, C1OUT take values (R365). -/
  | comparators (c2 c1 : Bool)
  /-- After a comparator mode change CMIF takes a value (U18). -/
  | falseCmif (v : Bool)
  /-- A frame arrives at the receiver: nine bits, and the stop bit's level (R368). -/
  | frame (bits : BitVec 9) (stop : Bool)
  /-- The transmit shift register has sent its frame (R379). -/
  | frameSent
  /-- The EEPROM write cycle completes (R375). -/
  | eeDone
  /-- The watchdog clocks the prescaler assigned to it (R343). -/
  | wdtClock
  /-- The watchdog times out (R380). -/
  | wdtTimeout
  /-- MCLR is driven low (R400). -/
  | mclr
  /-- The supply dips (R400). -/
  | brownOut
  /-- Power comes on (R400). -/
  | powerOn
deriving DecidableEq, Repr

/-- One entry of the schedule: what moves next at an instruction boundary (D18; log 1). -/
inductive EnvAct where
  /-- The CPU steps. -/
  | run
  /-- The CPU steps, and a pending interrupt waits for one more instruction if it has not waited (R321, D20). -/
  | hold
  /-- The environment acts. With `race` the event falls in the cycle of the instruction just finished (U12). -/
  | event (race : Bool) (e : EnvEvent)
deriving DecidableEq, Repr

/-- The machine. -/
structure State where
  /-- W (R30). -/
  w : Byte
  /-- PC<12:0>; PCL is its low byte (R34, R38). -/
  pc : CodeAddr
  /-- STK[0..STACK_DEPTH-1], the circular return stack (R40). -/
  stk : Vector CodeAddr Config.stackDepth
  /-- SP, the index of the next free entry (R40). -/
  sp : BitVec Config.spWidth
  /-- STATUS: IRP RP1 RP0 TO PD Z DC C (R44). -/
  status : Byte
  /-- FSR (R68). -/
  fsr : Byte
  /-- PCLATH<4:0> (R38). -/
  pclath : BitVec 5
  /-- The 224 general purpose bytes, by data address (R32). -/
  ram : List Host.Cell
  /-- Program memory, by word address (R100). -/
  prog : Memory 14
  /-- The sleeping flag (R80). -/
  sleeping : Bool
  /-- The core has woken: the instruction prefetched before it slept runs before any interrupt (R71, R384). -/
  prefetched : Bool
  /-- INTCON: GIE PEIE T0IE INTE RBIE T0IF INTF RBIF (R52). -/
  intcon : Byte
  /-- PIR1: EEIF CMIF - TXIF - CCP1IF TMR2IF TMR1IF. RCIF is kept by the receive buffer (R54). -/
  pir1 : Byte
  /-- PIE1: EEIE CMIE RCIE TXIE - CCP1IE TMR2IE TMR1IE (R55). -/
  pie1 : Byte
  /-- OPTION: RBPU INTEDG T0CS T0SE PSA PS2 PS1 PS0 (R56). -/
  option : Byte
  /-- PCON: - - - - OSCF - POR BOD (R67). -/
  pcon : Byte
  /-- The watchdog counter: instruction boundaries passed since it was cleared (R74, R380; log 18). -/
  wdt : Nat
  t0 : Timer0
  t1 : Timer1
  t2 : Timer2
  ccp : Ccp
  usart : Usart
  cmp : Comparators
  ee : Eeprom
  io : Ports
  /-- The model's own: instruction cycles the last instruction or interrupt entry took (R432; log 43). -/
  cycles : Nat
  /-- The model's own: the flag register the last instruction read, modified and wrote (U12; log 22). -/
  rmw : Rmw
  /-- The model's own: the interrupt requests an instruction has already run past (R321; log 15), as `requests` gives
  them (Machine/Interrupts.lean). -/
  irqHeld : BitVec 11
  /-- The model's own: how many open values have been drawn (log 2). -/
  freeIx : Nat
  /-- The model's own: the schedule of what moves next; when it is empty the CPU steps (log 1). -/
  env : List EnvAct
deriving DecidableEq, Repr

/-- Why the machine stops. The hardware has no synchronous exception (60_exceptions.md R300): these are the model's own
stops (00_scope.md R21, R301), raised by the step's fetch and by nothing else. -/
inductive Fault where
  /-- Raised when the fetched word is none of the table's (R156-R159, D7). Safe: the chip executes something there. -/
  | unlistedOpcode (w : InsnWord)
  /-- Raised when PC is at or above 0400h (R37, D2). Safe: the chip fetches something there. -/
  | fetchOutside (pc : CodeAddr)
  /-- Raised when the program defines no word at PC (R412, D32). Safe: the chip fetches something there. -/
  | undefinedWord (pc : CodeAddr)
deriving DecidableEq, Repr

/-- Why an instruction has no meaning. -/
inductive Refusal where
  /-- Raised by an arm of `exec` whose instruction has no meaning yet. Safe. No arm raises it. -/
  | notModelled (mnemonic : String)
deriving DecidableEq, Repr

/-- The machine right after power-on reset (10_state.md R90, 70_reset_and_hazards.md R401-R404, V19). Where R90 gives "x",
the value named here is the model's (logs 3, 4, 5, 9). -/
def State.reset : State where
  w := 0
  pc := Config.resetVector
  stk := Vector.replicate Config.stackDepth 0
  sp := 0
  status := 0b00011000
  fsr := 0
  pclath := 0
  ram := []
  prog := []
  sleeping := false
  prefetched := false
  intcon := 0
  pir1 := 0
  pie1 := 0
  option := 0xFF
  pcon := 0b00001000
  wdt := 0
  t0 := { tmr0 := 0, prescaler := 0, counted := false, inhibit := 0, wrote := false }
  t1 := { lo := 0, hi := 0, con := 0, pre := 0, armed := false }
  t2 := { tmr := 0, pr := 0xFF, con := 0, pre := 0, post := 0 }
  ccp := { lo := 0, hi := 0, con := 0, latch := 0, out := false, pre := 0 }
  usart :=
    { rcsta := 0, txsta := 0b00000010, spbrg := 0, txreg := 0, rcreg := 0, fifo := [], rsr := 0, drained := false,
      rxStopped := false, txFull := false, tsr := none, sent := [] }
  cmp := { con := 0, last := 0, moved := false, vrcon := 0 }
  ee := { adr := 0, data := 0, con1 := 0, cells := [], unlock := .idle, write := none }
  io :=
    { latA := 0, latB := 0, trisA := 0b11011111, trisB := 0xFF, change := 0, extA := 0, extB := 0, forceA := 0,
      forceB := 0, osc := false, seenA := 0, seenB := 0, seenClk := false }
  cycles := 0
  rmw := .none
  irqHeld := 0
  freeIx := 0
  env := []

end Sys2Proof.Machine
end

