-- ==== Sys2Proof/Machine/Memory.lean ====
section
/-! DEFINITION. Memories as lists of (address, cell) in one canonical form, and the bytes' bit-field helpers. -/

namespace Sys2Proof.Machine

/-- What the program put at `a`, if the list has it. -/
def Memory.find {n : Nat} : Memory n → Nat → Option (BitVec n)
  | [], _ => none
  | (b, v) :: m, a => if b = a then some v else Memory.find m a

/-- Put `v` at `a`, keeping the addresses rising. -/
def Memory.insert {n : Nat} : Memory n → Nat → BitVec n → Memory n
  | [], a, v => [(a, v)]
  | (b, u) :: m, a, v =>
    if a < b then (a, v) :: (b, u) :: m
    else if a = b then (a, v) :: m
    else (b, u) :: Memory.insert m a v

/-- Take the cell at `a` off the list. -/
def Memory.erase {n : Nat} : Memory n → Nat → Memory n
  | [], _ => []
  | (b, u) :: m, a => if b = a then m else (b, u) :: Memory.erase m a

/-- The cell at `a`, where an unlisted address reads `blank`. -/
def Memory.read {n : Nat} (blank : BitVec n) (m : Memory n) (a : Nat) : BitVec n := (m.find a).getD blank

/-- Write a cell: `blank` itself is not listed. -/
def Memory.write {n : Nat} (blank : BitVec n) (m : Memory n) (a : Nat) (v : BitVec n) : Memory n :=
  if v = blank then m.erase a else m.insert a v

/-- Addresses rise strictly. -/
def Memory.rising {n : Nat} : Memory n → Bool
  | [] => true
  | (a, _) :: m => m.all (fun c => decide (a < c.1)) && Memory.rising m

/-- The canonical form of a memory whose unlisted addresses read `blank`: equal memories are equal lists. -/
def Memory.wf {n : Nat} (blank : BitVec n) (m : Memory n) : Bool := m.rising && m.all (fun c => decide (c.2 ≠ blank))

/-- What a general purpose byte that nothing has written reads as: DESIGN CHOICE, unsafe (10_state.md R33, U1; log 4). -/
def ramBlank : Byte := 0x00

/-- What an EEPROM byte that nothing has written reads as: PRESUMED, the erased cell, unsafe (R78; log 5). -/
def eeBlank : Byte := 0xFF

/-- `v` with bit `i` made `b`; bit 0 is the least significant (00_scope.md R10). -/
def setBit (v : Byte) (i : Nat) (b : Bool) : Byte := if b then v ||| (1#8 <<< i) else v &&& ~~~(1#8 <<< i)

/-- Bits of `new` where `mask` has 1, of `old` elsewhere. -/
def merge (mask old new : Byte) : Byte := (old &&& ~~~mask) ||| (new &&& mask)

end Sys2Proof.Machine
end

