-- ==== Sys2Proof/Machine/Fields.lean ====
section
/-! DEFINITION. The named bits of the special function registers (10_state.md R44, R52-R67), and open values. -/

namespace Sys2Proof.Machine

/-- STATUS<0>, carry (R44). -/
abbrev State.c (s : State) : Bool := s.status.getLsbD 0
/-- STATUS<1>, digit carry (R44). -/
abbrev State.dc (s : State) : Bool := s.status.getLsbD 1
/-- STATUS<2>, zero (R44). -/
abbrev State.z (s : State) : Bool := s.status.getLsbD 2
/-- STATUS<3>, power-down, active low (R44). -/
abbrev State.pd (s : State) : Bool := s.status.getLsbD 3
/-- STATUS<4>, time-out, active low (R44). -/
abbrev State.to (s : State) : Bool := s.status.getLsbD 4
/-- STATUS<6:5>, the direct bank RP1:RP0 (R44). -/
abbrev State.rp (s : State) : BitVec 2 := s.status.extractLsb' 5 2
/-- STATUS<7>, the indirect bank pair (R44). -/
abbrev State.irp (s : State) : Bool := s.status.getLsbD 7

/-- INTCON<7>, global interrupt enable (R53). -/
abbrev State.gie (s : State) : Bool := s.intcon.getLsbD 7

/-- OPTION<6>: RB0/INT interrupts on the rising edge (R56). -/
abbrev State.intedg (s : State) : Bool := s.option.getLsbD 6
/-- OPTION<5>: Timer0 counts edges of T0CKI (R56). -/
abbrev State.t0cs (s : State) : Bool := s.option.getLsbD 5
/-- OPTION<4>: Timer0 counts falling edges (R56). -/
abbrev State.t0se (s : State) : Bool := s.option.getLsbD 4
/-- OPTION<3>: the prescaler is the watchdog's (R56). -/
abbrev State.psa (s : State) : Bool := s.option.getLsbD 3
/-- OPTION<2:0>: the prescaler's rate (R56). -/
abbrev State.ps (s : State) : Nat := (s.option.extractLsb' 0 3).toNat

/-- T1CON<5:4>: Timer1's prescale is 2 to this power (R59). -/
abbrev State.t1ckps (s : State) : Nat := (s.t1.con.extractLsb' 4 2).toNat
/-- T1CON<3>: the Timer1 oscillator runs (R59). -/
abbrev State.t1oscen (s : State) : Bool := s.t1.con.getLsbD 3
/-- Timer1 counts an external clock without synchronising it: TMR1CS = 1, T1SYNC = 1 (R352). -/
abbrev State.t1async (s : State) : Bool := s.t1.con.getLsbD 1 && s.t1.con.getLsbD 2
/-- Timer1 runs from the instruction clock: TMR1ON = 1, TMR1CS = 0 (R351). -/
abbrev State.t1timer (s : State) : Bool := s.t1.con.getLsbD 0 && !s.t1.con.getLsbD 1
/-- Timer1 runs from an external clock: TMR1ON = 1, TMR1CS = 1 (R352). -/
abbrev State.t1counter (s : State) : Bool := s.t1.con.getLsbD 0 && s.t1.con.getLsbD 1

/-- CCP1CON<3:0>, the mode (R61). -/
abbrev State.ccpMode (s : State) : Nat := (s.ccp.con.extractLsb' 0 4).toNat
/-- PWM mode, 11xx (R61). -/
abbrev State.pwm (s : State) : Bool := s.ccp.con.getLsbD 3 && s.ccp.con.getLsbD 2

/-- RCSTA<7>, serial port enable (R62). -/
abbrev State.spen (s : State) : Bool := s.usart.rcsta.getLsbD 7
/-- TXSTA<5>, transmit enable (R63). -/
abbrev State.txen (s : State) : Bool := s.usart.txsta.getLsbD 5
/-- RCIF: the receive buffer holds an unread byte (R54, R310). -/
abbrev State.rcif (s : State) : Bool := !s.usart.fifo.isEmpty

/-- The open value drawn next (Config.freeByte, log 2). -/
def State.free (s : State) : Byte := Config.freeByte s.freeIx

/-- The state after one open value has been drawn. -/
def State.spend (s : State) : State := { s with freeIx := s.freeIx + 1 }

end Sys2Proof.Machine
end

