-- ==== Sys2Proof/Machine/Flags.lean ====
section
/-! DEFINITION. Arithmetic results with their flags (10_state.md R45-R48), and how flags reach STATUS (R49, R50). -/

namespace Sys2Proof.Machine

/-- The flags an instruction lists under "Status Affected", with their computed values. -/
structure FlagUpdate where
  c : Option Bool
  dc : Option Bool
  z : Option Bool
deriving DecidableEq, Repr

/-- A result byte with its flags. -/
structure Alu where
  value : Byte
  flags : FlagUpdate
deriving DecidableEq, Repr

/-- No flag affected. -/
def noFlags : FlagUpdate := ⟨none, none, none⟩

/-- Z from the 8-bit result (R45). -/
def zeroOf (r : Byte) : FlagUpdate := ⟨none, none, some (r == 0)⟩

/-- A result that affects no flag. -/
def plain (r : Byte) : Alu := ⟨r, noFlags⟩

/-- A result that affects Z alone. -/
def withZ (r : Byte) : Alu := ⟨r, zeroOf r⟩

/-- `a + b` with C, DC, Z (R46). -/
def add (a b : Byte) : Alu :=
  ⟨a + b,
    ⟨some (decide (255 < a.toNat + b.toNat)), some (decide (15 < a.toNat % 16 + b.toNat % 16)), some (a + b == 0)⟩⟩

/-- `m - w` with C, DC, Z: C and DC are 1 when there is no borrow (R47). -/
def sub (m w : Byte) : Alu :=
  ⟨m - w, ⟨some (decide (w.toNat ≤ m.toNat)), some (decide (w.toNat % 16 ≤ m.toNat % 16)), some (m - w == 0)⟩⟩

/-- Rotate left through carry (R48, R215). -/
def rotateLeft (c : Bool) (v : Byte) : Alu :=
  ⟨v.extractLsb' 0 7 ++ BitVec.ofBool c, ⟨some (v.getLsbD 7), none, none⟩⟩

/-- Rotate right through carry (R48, R216). -/
def rotateRight (c : Bool) (v : Byte) : Alu :=
  ⟨BitVec.ofBool c ++ v.extractLsb' 1 7, ⟨some (v.getLsbD 0), none, none⟩⟩

/-- Exchange the nibbles (R218). -/
def swapNibbles (v : Byte) : Byte := v.extractLsb' 0 4 ++ v.extractLsb' 4 4

/-- Set a bit of a byte if there is a value for it. -/
def setBit? (v : Byte) (i : Nat) : Option Bool → Byte
  | some b => setBit v i b
  | none => v

/-- STATUS with the affected flags set and the others kept. -/
def FlagUpdate.apply (u : FlagUpdate) (status : Byte) : Byte := setBit? (setBit? (setBit? status 0 u.c) 1 u.dc) 2 u.z

/-- An unaffected flag's value after STATUS itself was the destination: open (R50, U6). -/
def openFlag (v : Byte) (i : Nat) : Option Bool → Option Bool
  | some b => some b
  | none => some (v.getLsbD i)

/-- The update when STATUS was the destination: every flag the instruction does not list takes an open value `v` gives
(R50, U6; log 13). -/
def FlagUpdate.opened (u : FlagUpdate) (v : Byte) : FlagUpdate := ⟨openFlag v 0 u.c, openFlag v 1 u.dc, openFlag v 2 u.z⟩

/-- The instruction lists all three flags, so none is open. -/
def FlagUpdate.listsAll (u : FlagUpdate) : Bool := u.c.isSome && u.dc.isSome && u.z.isSome

/-- Write the flags of an instruction. `toStatus`: its destination was STATUS. An instruction that affects no flag
wrote STATUS plainly (R50). -/
def putFlags (u : FlagUpdate) (toStatus : Bool) (s : State) : State :=
  if u = noFlags then s
  else if toStatus && !u.listsAll then { s.spend with status := (u.opened s.free).apply s.status }
  else { s with status := u.apply s.status }

/-- Set TO and PD, which only CLRWDT, SLEEP, a watchdog time-out and resets write (R49). -/
def setToPd (t p : Bool) (status : Byte) : Byte := setBit (setBit status 4 t) 3 p

end Sys2Proof.Machine
end

