-- ==== Sys2Proof/Machine/Map.lean ====
section
/-! DEFINITION. The data memory map: which register a nine-bit data address reaches (10_state.md R32, R51;
20_memory.md R104, R123). -/

namespace Sys2Proof.Machine

/-- A cell of data memory after mirrors are resolved (R15, R104). -/
inductive Reg where
  /-- INDF reached through itself (R109). -/
  | indf
  | tmr0
  | pcl
  | status
  | fsr
  | porta
  | portb
  | pclath
  | intcon
  | pir1
  | tmr1l
  | tmr1h
  | t1con
  | tmr2
  | t2con
  | ccpr1l
  | ccpr1h
  | ccp1con
  | rcsta
  | txreg
  | rcreg
  | cmcon
  | option
  | trisa
  | trisb
  | pie1
  | pcon
  | pr2
  | txsta
  | spbrg
  | eedata
  | eeadr
  | eecon1
  | eecon2
  | vrcon
  /-- A general purpose byte, by its address after mirrors are resolved (R32). -/
  | gpr (a : Nat)
  /-- Unimplemented: reads 0, discards writes (R51). -/
  | none
deriving DecidableEq, Repr

/-- The registers that every bank shows (R104). -/
def commonReg (off : Nat) : Reg :=
  match off with
  | 0x00 => .indf
  | 0x02 => .pcl
  | 0x03 => .status
  | 0x04 => .fsr
  | 0x0A => .pclath
  | 0x0B => .intcon
  | _ => .none

/-- Bank 0's own registers (R51). -/
def bank0Reg (off : Nat) : Reg :=
  match off with
  | 0x01 => .tmr0
  | 0x05 => .porta
  | 0x06 => .portb
  | 0x0C => .pir1
  | 0x0E => .tmr1l
  | 0x0F => .tmr1h
  | 0x10 => .t1con
  | 0x11 => .tmr2
  | 0x12 => .t2con
  | 0x15 => .ccpr1l
  | 0x16 => .ccpr1h
  | 0x17 => .ccp1con
  | 0x18 => .rcsta
  | 0x19 => .txreg
  | 0x1A => .rcreg
  | 0x1F => .cmcon
  | off => commonReg off

/-- Bank 1's own registers but TRISB (R51). -/
def bank1Reg (off : Nat) : Reg :=
  match off with
  | 0x01 => .option
  | 0x05 => .trisa
  | 0x0C => .pie1
  | 0x0E => .pcon
  | 0x12 => .pr2
  | 0x18 => .txsta
  | 0x19 => .spbrg
  | 0x1A => .eedata
  | 0x1B => .eeadr
  | 0x1C => .eecon1
  | 0x1D => .eecon2
  | 0x1F => .vrcon
  | off => commonReg off

/-- Bank 2's registers: TMR0 and PORTB mirrored (R104). -/
def bank2Reg (off : Nat) : Reg :=
  match off with
  | 0x01 => .tmr0
  | 0x06 => .portb
  | off => commonReg off

/-- Bank 3's registers but TRISB: OPTION mirrored (R104). -/
def bank3Reg (off : Nat) : Reg :=
  match off with
  | 0x01 => .option
  | off => commonReg off

/-- TRISB stands at TRISB_ADDR and, mirrored, 100h above it (R66, R104, D9). -/
def isTrisb (bank off : Nat) : Bool := bank % 2 == 1 && 128 + off == Config.trisbAddr.toNat

/-- The special function register at an offset below 20h of a bank (R51). -/
def sfr (bank off : Nat) : Reg :=
  if isTrisb bank off then .trisb
  else
    match bank with
    | 0 => bank0Reg off
    | 1 => bank1Reg off
    | 2 => bank2Reg off
    | _ => bank3Reg off

/-- The cell at a data address (R32, R51, R104): 70h-7Fh of every bank are the same 16 bytes. -/
def resolve (a : DataAddr) : Reg :=
  let bank := a.toNat / 128
  let off := a.toNat % 128
  if off < 0x20 then sfr bank off
  else if 0x70 ≤ off then .gpr off
  else if bank = 0 ∨ bank = 1 ∨ (bank = 2 ∧ off < 0x50) then .gpr a.toNat
  else .none

/-- The address after mirrors are resolved is one of a general purpose byte (R32). -/
def gprAddr (a : Nat) : Bool :=
  (decide (0x20 ≤ a) && decide (a < 0x80)) || (decide (0xA0 ≤ a) && decide (a < 0xF0)) ||
    (decide (0x120 ≤ a) && decide (a < 0x150))

end Sys2Proof.Machine
end

