-- ==== Sys2Proof/Machine/Ports.lean ====
section
/-! DEFINITION. The port pins (10_state.md R65, R66; 60_exceptions.md R355; D17). -/

namespace Sys2Proof.Machine

/-- What the chip puts on PORTB's output pins: the latch, but CCP1's output on RB3 in the compare modes that move the
pin and in PWM mode (R360, R363; log 29). -/
def driveB (s : State) : Byte :=
  if s.pwm || s.ccpMode == 0b1000 || s.ccpMode == 0b1001 then setBit s.io.latB 3 s.ccp.out else s.io.latB

/-- PORTB pins that are inputs: TRISB, and RB7:RB6 whatever TRISB says while the Timer1 oscillator is enabled (R66, R355). -/
def inputsB (s : State) : Byte := if s.t1oscen then s.io.trisB ||| 0xC0 else s.io.trisB

/-- The levels on PORTB's pins: an input shows the outside; an output shows what the chip drives unless the outside
overrides it (R65, D17). -/
def pinsB (s : State) : Byte := merge (inputsB s ||| s.io.forceB) (driveB s) s.io.extB

/-- PORTA pins that are inputs: TRISA, and RA5, which has no direction bit (R66, R92; PRESUMED: log 31). -/
def inputsA (s : State) : Byte := s.io.trisA ||| 0x20

/-- The levels on PORTA's pins (R65, D17). -/
def pinsA (s : State) : Byte := merge (inputsA s ||| s.io.forceA) s.io.latA s.io.extA

/-- What PORTA reads: the comparator pins RA3:RA0 read 0 until CMCON<2:0> is 111 (R411; DEDUCED: log 31). -/
def readA (s : State) : Byte := if s.cmp.con.extractLsb' 0 3 = 0b111 then pinsA s else pinsA s &&& 0xF0

/-- Timer1's external clock: the crystal if the oscillator is enabled, else pin RB6 (R352). -/
def clockT1 (s : State) : Bool := if s.t1oscen then s.io.osc else (pinsB s).getLsbD 6

end Sys2Proof.Machine
end

