-- ==== Sys2Proof/Machine/Interrupts.lean ====
section
/-! DEFINITION. Interrupt flags and the interrupt condition (60_exceptions.md R310-R312). -/

namespace Sys2Proof.Machine

/-- The three sources of INTCON: a flag and its enable (R312). -/
def coreRequest (s : State) : Bool :=
  (s.intcon.getLsbD 5 && s.intcon.getLsbD 2) || (s.intcon.getLsbD 4 && s.intcon.getLsbD 1) ||
    (s.intcon.getLsbD 3 && s.intcon.getLsbD 0)

/-- The seven sources of PIR1 and PIE1 (R312). -/
def peripheralRequest (s : State) : Bool :=
  (s.pie1.getLsbD 7 && s.pir1.getLsbD 7) || (s.pie1.getLsbD 6 && s.pir1.getLsbD 6) || (s.pie1.getLsbD 5 && s.rcif) ||
    (s.pie1.getLsbD 4 && s.pir1.getLsbD 4) || (s.pie1.getLsbD 2 && s.pir1.getLsbD 2) ||
    (s.pie1.getLsbD 1 && s.pir1.getLsbD 1) || (s.pie1.getLsbD 0 && s.pir1.getLsbD 0)

/-- `wake` of R312: PEIE gates the PIR1 sources; GIE does not matter (R383). -/
def wake (s : State) : Bool := coreRequest s || (s.intcon.getLsbD 6 && peripheralRequest s)

/-- `irq` of R312. -/
def irq (s : State) : Bool := s.gie && wake s

/-- The requests that reach the core, one bit for each source (R312): flag and enable of the three of INTCON in bits 10:8,
in INTCON's order, and of the seven of PIR1, behind PEIE, in bits 7:0, in PIR1's order; none with GIE = 0. -/
def requests (s : State) : BitVec 11 :=
  if s.gie then
    (s.intcon.extractLsb' 3 3 &&& s.intcon.extractLsb' 0 3) ++
      (if s.intcon.getLsbD 6 then s.pie1 &&& setBit s.pir1 5 s.rcif &&& 0xF7 else 0#8)
  else 0

/-- A request that has been withdrawn counts as new when it comes again (R321, D20; log 15). -/
def lapse (s : State) : State := { s with irqHeld := s.irqHeld &&& requests s }

/-- Hardware sets flags of INTCON. A flag that was clear and is set in the cycle of a read-modify-write of INTCON takes
either value (R120, U12). -/
def raiseIntcon (flags : Byte) (s : State) : State :=
  if s.rmw = .intcon ∧ flags &&& ~~~s.intcon ≠ 0 then
    { s.spend with intcon := s.intcon ||| (flags &&& s.free) }
  else { s with intcon := s.intcon ||| flags }

/-- Hardware sets flags of PIR1, with the same race (R120, U12). -/
def raisePir1 (flags : Byte) (s : State) : State :=
  if s.rmw = .pir1 ∧ flags &&& ~~~s.pir1 ≠ 0 then
    { s.spend with pir1 := s.pir1 ||| (flags &&& s.free) }
  else { s with pir1 := s.pir1 ||| flags }

/-- T0IF, INTCON<2> (R344). -/
def t0if : Byte := 0x04
/-- INTF, INTCON<1> (R314). -/
def intf : Byte := 0x02
/-- RBIF, INTCON<0> (R315). -/
def rbif : Byte := 0x01
/-- EEIF, PIR1<7> (R375). -/
def eeif : Byte := 0x80
/-- CMIF, PIR1<6> (R310). -/
def cmif : Byte := 0x40
/-- CCP1IF, PIR1<2> (R310). -/
def ccp1if : Byte := 0x04
/-- TMR2IF, PIR1<1> (R357). -/
def tmr2if : Byte := 0x02
/-- TMR1IF, PIR1<0> (R353). -/
def tmr1if : Byte := 0x01

end Sys2Proof.Machine
end

