-- ==== Sys2Proof/Machine/Timers.lean ====
section
/-! DEFINITION. Timer0, Timer1, Timer2 and CCP1: what one clock of each does (60_exceptions.md sections 4 to 7). -/

namespace Sys2Proof.Machine

/-- `tmr0_tick` of R341: the overflow from FFh to 00h sets T0IF (R344). -/
def tmr0Tick (s : State) : State :=
  let s' := { s with t0 := { s.t0 with tmr0 := s.t0.tmr0 + 1 } }
  if s.t0.tmr0 = 0xFF then raiseIntcon t0if s' else s'

/-- One clock of Timer0's input, through the prescaler if it is assigned to Timer0 (R341, R343). -/
def t0Clock (s : State) : State :=
  if s.psa then tmr0Tick s
  else
    let p := s.t0.prescaler + 1
    let s' := { s with t0 := { s.t0 with prescaler := p, counted := true } }
    if p.toNat % 2 ^ (s.ps + 1) = 0 then tmr0Tick s' else s'

/-- Timer0 in one instruction cycle (R341). A write inhibits the two cycles after the writing instruction (R346, D16), and in
that instruction's own cycles, one or two, the written value stands (DESIGN CHOICE, unsafe: log 20). -/
def t0Cycle (s : State) : State :=
  if s.t0.wrote then s
  else if s.t0.inhibit ≠ 0 then { s with t0 := { s.t0 with inhibit := s.t0.inhibit - 1 } }
  else if s.t0cs then s
  else t0Clock s

/-- TMR1H:TMR1L (R350). -/
def tmr1 (s : State) : BitVec 16 := s.t1.hi ++ s.t1.lo

/-- CCPR1H:CCPR1L (R360). -/
def ccpr1 (s : State) : BitVec 16 := s.ccp.hi ++ s.ccp.lo

/-- Set TMR1H:TMR1L. -/
def setTmr1 (v : BitVec 16) (s : State) : State :=
  { s with t1 := { s.t1 with hi := v.extractLsb' 8 8, lo := v.extractLsb' 0 8 } }

/-- A compare match in the modes that leave Timer1 alone: set the pin, clear it, or only interrupt (R360, R361). -/
def compareMatch (s : State) : State :=
  let s' := raisePir1 ccp1if s
  if s.ccpMode = 0b1000 then { s' with ccp := { s'.ccp with out := true } }
  else if s.ccpMode = 0b1001 then { s' with ccp := { s'.ccp with out := false } }
  else s'

/-- Timer1 counts one up; the roll-over sets TMR1IF (R351, R353). -/
def t1Advance (s : State) : State :=
  let s' := setTmr1 (tmr1 s + 1) s
  if tmr1 s + 1 = 0 then raisePir1 tmr1if s' else s'

/-- The comparison of Timer1's new count with CCPR1 in modes 1000 to 1010 (R360, R361; log 25). In Asynchronous Counter
mode "the compare operation may not work": whether it does is open (R360; log 26). -/
def t1Compare (s : State) : State :=
  if (s.ccpMode = 0b1000 ∨ s.ccpMode = 0b1001 ∨ s.ccpMode = 0b1010) ∧ tmr1 s = ccpr1 s then
    if s.t1async then (if s.free.getLsbD 0 then compareMatch s.spend else s.spend) else compareMatch s
  else s

/-- An increment of Timer1 with the compare match it may make. -/
def t1Count (s : State) : State := t1Compare (t1Advance s)

/-- The special event trigger (R354, R362): CCP1IF is set and Timer1 starts again from 0000h, without TMR1IF. -/
def specialEvent (s : State) : State := setTmr1 0 (raisePir1 ccp1if s)

/-- One increment clock of Timer1. In mode 1011 the clock after CCPR1 was reached is the match, so that Timer1 counts
0 to CCPR1 and the period is CCPR1 + 1 increments (R362; log 25). -/
def t1Inc (s : State) : State :=
  if s.ccpMode = 0b1011 ∧ tmr1 s = ccpr1 s then
    if s.t1async then (if s.free.getLsbD 0 then specialEvent s.spend else t1Count s.spend) else specialEvent s
  else t1Count s

/-- One clock of Timer1's input, through its prescaler (R350, R351; log 23). -/
def t1Clock (s : State) : State :=
  if 2 ^ s.t1ckps ≤ s.t1.pre + 1 then t1Inc { s with t1 := { s.t1 with pre := 0 } }
  else { s with t1 := { s.t1 with pre := s.t1.pre + 1 } }

/-- Timer1 in one instruction cycle (R351). -/
def t1Cycle (s : State) : State := if s.t1timer then t1Clock s else s

/-- Timer2's prescale: 1, 4, 16, 16 (R60, R357). -/
def t2Prescale (s : State) : Nat :=
  match (s.t2.con.extractLsb' 0 2).toNat with
  | 0 => 1
  | 1 => 4
  | _ => 16

/-- Timer2's postscale: TOUTPS + 1 (R60, R357). -/
def t2Postscale (s : State) : Nat := (s.t2.con.extractLsb' 3 4).toNat + 1

/-- `pwm_period_start` of R363, in PWM mode: the duty cycle is latched and the pin set unless the duty value is 0. -/
def pwmPeriodStart (s : State) : State :=
  if s.pwm then
    let low := s.ccp.con.extractLsb' 4 2
    { s with
      ccp := { s.ccp with hi := s.ccp.lo, latch := low, out := if s.ccp.lo = 0 ∧ low = 0 then s.ccp.out else true } }
  else s

/-- The two bits below TMR2 that the duty cycle is compared with (R363): the upper two of the prescaler's count at 4 and 16;
at 1 they are the Q clock, whose phase 0 a cycle begins with. -/
def pwmLowBits (s : State) : Nat := s.t2.pre * 4 / t2Prescale s

/-- The PWM pin is cleared when TMR2 and the two bits below it equal CCPR1H and the latch (R363), here as a cycle leaves
them. -/
def pwmCompare (s : State) : State :=
  if s.pwm && s.t2.tmr == s.ccp.hi && pwmLowBits s == s.ccp.latch.toNat then
    { s with ccp := { s.ccp with out := false } }
  else s

/-- The same comparison through the cycle that begins, with what an instruction has just written: at prescale 1 the Q clock
comes to every phase while TMR2 stands (R363; log 28). -/
def pwmCompareQ (s : State) : State :=
  if s.pwm && s.t2.tmr == s.ccp.hi && (t2Prescale s == 1 || pwmLowBits s == s.ccp.latch.toNat) then
    { s with ccp := { s.ccp with out := false } }
  else s

/-- The match of TMR2 with PR2: TMR2 restarts, a PWM period starts, and the postscaler counts (R357). -/
def t2Match (s : State) : State :=
  let s1 := pwmPeriodStart { s with t2 := { s.t2 with tmr := 0 } }
  if t2Postscale s ≤ s.t2.post + 1 then raisePir1 tmr2if { s1 with t2 := { s1.t2 with post := 0 } }
  else { s1 with t2 := { s1.t2 with post := s.t2.post + 1 } }

/-- One increment clock of Timer2 (R357). -/
def t2Inc (s : State) : State :=
  if s.t2.tmr = s.t2.pr then t2Match s else { s with t2 := { s.t2 with tmr := s.t2.tmr + 1 } }

/-- One instruction cycle of Timer2's prescaler (R357). -/
def t2Clock (s : State) : State :=
  if t2Prescale s ≤ s.t2.pre + 1 then t2Inc { s with t2 := { s.t2 with pre := 0 } }
  else { s with t2 := { s.t2 with pre := s.t2.pre + 1 } }

/-- Timer2 in one instruction cycle: it counts with TMR2ON = 1 (R357); the PWM pin is compared either way (R363). -/
def t2Cycle (s : State) : State :=
  let s1 := pwmCompareQ s
  pwmCompare (if s1.t2.con.getLsbD 2 then t2Clock s1 else s1)

/-- A capture: CCPR1 takes Timer1's count and CCP1IF is set (R61, R310; PRESUMED: log 27). -/
def capture (s : State) : State :=
  raisePir1 ccp1if { s with ccp := { s.ccp with hi := s.t1.hi, lo := s.t1.lo } }

/-- A rising edge counted towards a capture at every `n`th (R61; log 27). -/
def captureEvery (n : Nat) (s : State) : State :=
  if n ≤ s.ccp.pre + 1 then capture { s with ccp := { s.ccp with pre := 0 } }
  else { s with ccp := { s.ccp with pre := s.ccp.pre + 1 } }

end Sys2Proof.Machine
end

