-- ==== Sys2Proof/Machine/Ops.lean ====
section
/-! DEFINITION. The named operations: register and memory access with their side effects (20_memory.md R112, R113),
the program counter and the return stack (10_state.md R36-R42), interrupt entry and return (60_exceptions.md R320,
R324). -/

namespace Sys2Proof.Machine

/-- What the meanings answer. -/
abbrev Result := Host.Outcome State Fault Refusal

/-! ## Program counter and return stack -/

/-- The instruction ends without writing PC: one cycle (R36, R432). -/
def advance (s : State) : State := { s with pc := s.pc + 1, cycles := 1 }

/-- A taken skip: the next word is discarded, two cycles (R245, R432). -/
def skip (s : State) : State := { s with pc := s.pc + 2, cycles := 2 }

/-- The instruction writes PC: two cycles (R36, R432). -/
def jump (t : CodeAddr) (s : State) : State := { s with pc := t, cycles := 2 }

/-- `push` (R41): circular, the ninth push overwrites the oldest entry, nothing reports it (D3). -/
def push (v : CodeAddr) (s : State) : State := { s with stk := s.stk.set s.sp.toNat v s.sp.isLt, sp := s.sp + 1 }

/-- The top of the stack: the value `pop` would return (R20, R42). -/
def tos (s : State) : CodeAddr := s.stk[(s.sp - 1).toNat]'((s.sp - 1).isLt)

/-- `pop` (R42): the pointer steps back, the entry stays (D3, D26). -/
def pop (s : State) : State := { s with sp := s.sp - 1 }

/-- The target of CALL and GOTO: PCLATH<4:3> : k (R149). -/
def pageTarget (k : BitVec 11) (s : State) : CodeAddr := s.pclath.extractLsb' 3 2 ++ k

/-! ## Data EEPROM -/

/-- Setting RD: EEDATA takes the addressed byte (R371). While a write is in progress it takes an open value (U8). -/
def eeRead (s : State) : State :=
  if s.ee.write.isSome then { s.spend with ee := { s.ee with data := s.free } }
  else { s with ee := { s.ee with data := Memory.read eeBlank s.ee.cells (s.ee.adr.toNat % 128) } }

/-- Setting WR: the write starts if WREN was 1 and the sequence has just completed (R373, R374; logs 36, 37); else nothing
starts. `wren` is WREN before the instruction. -/
def eeStart (wren : Bool) (s : State) : State :=
  if wren && s.ee.unlock == .complete then
    { s with
      ee := { s.ee with write := some ⟨s.ee.adr.extractLsb' 0 7, s.ee.data, 0⟩, unlock := .idle } }
  else { s with ee := { s.ee with unlock := .idle } }

/-- A write to EECON1: WRERR and WREN are stored; RD and WR can be set, not cleared (R64, R371, R374). -/
def writeEecon1 (v : Byte) (s : State) : State :=
  let s1 := { s with ee := { s.ee with con1 := v &&& 0x0C } }
  let s2 := if v.getLsbD 1 then eeStart (s.ee.con1.getLsbD 2) s1 else s1
  if v.getLsbD 0 then eeRead s2 else s2

/-! ## Registers with rules of their own -/

/-- A write to OPTION. Changing PSA while the prescaler counts can give Timer0 one spurious increment (R345, U15): it
counts when it has been clocked since it was last cleared (log 21). -/
def writeOption (v : Byte) (s : State) : State :=
  let s1 := { s with option := v }
  if v.getLsbD 3 ≠ s.psa ∧ s.t0.counted then
    if s.free.getLsbD 0 then tmr0Tick s1.spend else s1.spend
  else s1

/-- A write to TMR0: the increment is inhibited for two cycles, and the prescaler cleared if it is Timer0's (R113, R345,
R346). -/
def writeTmr0 (v : Byte) (s : State) : State :=
  { s with
    t0 :=
      { tmr0 := v
        inhibit := 2
        wrote := true
        prescaler := if s.psa then s.t0.prescaler else 0
        counted := s.psa && s.t0.counted } }

/-- A write to T1CON. A counter enabled by it waits for a falling edge first (R352). -/
def writeT1con (v : Byte) (s : State) : State :=
  let on := v.getLsbD 0 && v.getLsbD 1
  { s with t1 := { s.t1 with con := v &&& 0x3F, armed := s.t1.armed && s.t1counter && on } }

/-- A write to CCP1CON. Clearing the register forces the compare output low (U16); leaving the capture modes clears the
edge count (log 27). -/
def writeCcp1con (v : Byte) (s : State) : State :=
  let con := v &&& 0x3F
  { s with
    ccp :=
      { s.ccp with
        con := con
        out := if con = 0 then false else s.ccp.out
        pre := if con.extractLsb' 2 2 = 0b01 then s.ccp.pre else 0 } }

/-- A write to PORTB: the output latch. A read that came before has ended the change mismatch; a write without one (MOVWF,
CLRF) that finds a mismatch may end it or not, since R315 says it does, and R79 with U13 that it does not (log 33). -/
def writePortb (v : Byte) (s : State) : State :=
  let s1 := { s with io := { s.io with latB := v } }
  if (s.io.change ^^^ pinsB s) &&& 0xF0 = 0 then s1
  else { s1.spend with io := { s1.io with change := if s.free.getLsbD 0 then pinsB s else s.io.change } }

/-- A write to RCSTA: FERR, OERR, RX9D are read-only (U23); clearing CREN clears OERR (R62, R366). DESIGN CHOICE, unsafe
(log 48): FERR stays (step 9 of R368 says "any error", R62 gives OERR alone), and a write that finds CREN already 0 and
leaves it so clears OERR too. Setting CREN after OERR has been cleared ends the stop of reception that an overrun began:
CREN has then been cleared and set again (R366; log 55). -/
def writeRcsta (v : Byte) (s : State) : State :=
  let r := merge 0xF8 s.usart.rcsta v
  { s with
    usart :=
      { s.usart with
        rcsta := if v.getLsbD 4 then r else setBit r 1 false
        rxStopped := s.usart.rxStopped && !(v.getLsbD 4 && !s.usart.rcsta.getLsbD 1) } }

/-- A write to TXREG clears TXIF; the byte waits for the shift register (R113, R379). -/
def writeTxreg (v : Byte) (s : State) : State :=
  { s with pir1 := setBit s.pir1 4 false, usart := { s.usart with txreg := v, txFull := true } }

/-- A write to CMCON: C2OUT, C1OUT are read-only; a change of CM2:CM0 lets a false comparator interrupt occur (R423,
U18). -/
def writeCmcon (v : Byte) (s : State) : State :=
  { s with
    cmp :=
      { s.cmp with
        con := merge 0x3F s.cmp.con v
        moved := s.cmp.moved || (v.extractLsb' 0 3 != s.cmp.con.extractLsb' 0 3) } }

/-- The receive status bits of the byte now at the head of the buffer (R366, R368). -/
def headStatus (b : RxByte) (rcsta : Byte) : Byte := setBit? (setBit rcsta 2 b.framing) 0 b.ninth

/-- Reading RCREG takes the oldest byte away; the next byte's FERR and RX9D show in RCSTA (R366). When no byte is left, of
which R366 says nothing, RCSTA keeps the last byte's (DESIGN CHOICE, unsafe: log 49). -/
def popRx (u : Usart) : Usart :=
  match u.fifo with
  | [] => u
  | [_] => { u with fifo := [], drained := true }
  | _ :: b :: rest => { u with fifo := b :: rest, drained := true, rcsta := headStatus b u.rcsta }

/-- TXSTA as read: TRMT is 1 when the shift register is empty (R63, R379). -/
def readTxsta (u : Usart) : Byte := setBit u.txsta 1 u.tsr.isNone

/-- EECON1 as read: WR is 1 while a write is in progress, RD reads 0 (R371, R374). -/
def readEecon1 (e : Eeprom) : Byte := setBit e.con1 1 e.write.isSome

/-- PIR1 as read, RCIF included (R54). -/
def readPir1 (s : State) : Byte := setBit s.pir1 5 s.rcif

/-! ## The access primitives -/

/-- What a cell reads as, without its side effects (R112). -/
def peek (r : Reg) (s : State) : Byte :=
  match r with
  | .indf | .none | .eecon2 => 0
  | .tmr0 => s.t0.tmr0
  | .pcl => (s.pc + 1).extractLsb' 0 8
  | .status => s.status
  | .fsr => s.fsr
  | .porta => readA s
  | .portb => pinsB s
  | .pclath => s.pclath.setWidth 8
  | .intcon => s.intcon
  | .pir1 => readPir1 s
  | .tmr1l => s.t1.lo
  | .tmr1h => s.t1.hi
  | .t1con => s.t1.con
  | .tmr2 => s.t2.tmr
  | .t2con => s.t2.con
  | .ccpr1l => s.ccp.lo
  | .ccpr1h => s.ccp.hi
  | .ccp1con => s.ccp.con
  | .rcsta => s.usart.rcsta
  | .txreg => s.usart.txreg
  | .rcreg =>
    match s.usart.fifo with
    | [] => s.usart.rcreg
    | b :: _ => b.data
  | .cmcon => s.cmp.con
  | .option => s.option
  | .trisa => s.io.trisA
  | .trisb => s.io.trisB
  | .pie1 => s.pie1
  | .pcon => s.pcon
  | .pr2 => s.t2.pr
  | .txsta => readTxsta s.usart
  | .spbrg => s.usart.spbrg
  | .eedata => s.ee.data
  | .eeadr => s.ee.adr
  | .eecon1 => readEecon1 s.ee
  | .vrcon => s.cmp.vrcon
  | .gpr a => Memory.read ramBlank s.ram a

/-- RCREG read while the receive buffer is empty and a byte has been received before: any value (U19; log 34). -/
def openRcreg (s : State) : Bool := s.usart.fifo.isEmpty && s.usart.drained

/-- The value a read returns: `MemRead` (R112). -/
def readValue (r : Reg) (s : State) : Byte := if r = .rcreg ∧ openRcreg s then s.free else peek r s

/-- What a read does: RCREG loses its oldest byte, PORTB's change mismatch ends (R112, R315, R366). A read of CMCON ends
the comparators' mismatch: R112 and R121 give no register but RCREG and PORTB an effect of a read, while R310 measures
CMIF's change from the last read of CMCON; the model follows R310 (DESIGN CHOICE, unsafe: log 45). -/
def readEffect (r : Reg) (s : State) : State :=
  match r with
  | .rcreg => if openRcreg s then s.spend else { s with usart := popRx s.usart }
  | .portb => { s with io := { s.io with change := pinsB s } }
  | .cmcon => { s with cmp := { s.cmp with last := s.cmp.con.extractLsb' 6 2 } }
  | _ => s

/-- `MemWrite` (R113): a write with its side effects. Unimplemented bits are discarded (R92), read-only bits keep their
value (U23). EECON2 stores nothing: which instruction writes it is what counts (R373, `unlockNext`). -/
def memWrite (r : Reg) (v : Byte) (s : State) : State :=
  match r with
  | .indf | .none | .eecon2 => s
  | .tmr0 => writeTmr0 v s
  | .pcl => jump (s.pclath ++ v) s
  | .status => { s with status := merge 0xE7 s.status v }
  | .fsr => { s with fsr := v }
  | .porta => { s with io := { s.io with latA := v } }
  | .portb => writePortb v s
  | .pclath => { s with pclath := v.extractLsb' 0 5 }
  | .intcon => { s with intcon := v }
  | .pir1 => { s with pir1 := merge 0xC7 s.pir1 v }
  | .tmr1l => { s with t1 := { s.t1 with lo := v, pre := 0 } }
  | .tmr1h => { s with t1 := { s.t1 with hi := v, pre := 0 } }
  | .t1con => writeT1con v s
  | .tmr2 => { s with t2 := { s.t2 with tmr := v, pre := 0, post := 0 } }
  | .t2con => { s with t2 := { s.t2 with con := v &&& 0x7F, pre := 0, post := 0 } }
  | .ccpr1l => { s with ccp := { s.ccp with lo := v } }
  | .ccpr1h => if s.pwm then s else { s with ccp := { s.ccp with hi := v } }
  | .ccp1con => writeCcp1con v s
  | .rcsta => writeRcsta v s
  | .txreg => writeTxreg v s
  | .rcreg => { s with usart := { s.usart with rcreg := v } }
  | .cmcon => writeCmcon v s
  | .option => writeOption v s
  | .trisa => { s with io := { s.io with trisA := v &&& 0xDF } }
  | .trisb => { s with io := { s.io with trisB := v } }
  | .pie1 => { s with pie1 := v &&& 0xF7 }
  | .pcon => { s with pcon := v &&& 0x0B }
  | .pr2 => { s with t2 := { s.t2 with pr := v } }
  | .txsta => { s with usart := { s.usart with txsta := v &&& 0xF5 } }
  | .spbrg => { s with usart := { s.usart with spbrg := v } }
  | .eedata => { s with ee := { s.ee with data := v } }
  | .eeadr => { s with ee := { s.ee with adr := v } }
  | .eecon1 => writeEecon1 v s
  | .vrcon => { s with cmp := { s.cmp with vrcon := v &&& 0xEF } }
  | .gpr a => { s with ram := Memory.write ramBlank s.ram a v }

/-- The flag register whose read-modify-write hardware may race with (R120, U12). -/
def rmwOf (r : Reg) : Rmw :=
  match r with
  | .intcon => .intcon
  | .pir1 => .pir1
  | _ => .none

/-- The write of a read-modify-write instruction (R119). -/
def writeBack (r : Reg) (v : Byte) (s : State) : State := { memWrite r v s with rmw := rmwOf r }

/-! ## Interrupts, the watchdog -/

/-- INTERRUPT ENTRY (R320), the machine's one exception: the address of the next instruction is pushed, GIE is cleared, PC
goes to the interrupt vector (R122, D8), two cycles (D36). Nothing else is saved; an EEPROM unlock sequence
is lost (R373, U20). -/
def interruptEntry (s : State) : State :=
  jump Config.intVector
    { push s.pc s with
      intcon := setBit s.intcon 7 false
      ee := { s.ee with unlock := .idle } }

/-- RETURN FROM INTERRUPT (R268, R324): PC from the stack, GIE set, nothing else restored. -/
def interruptReturn (s : State) : State := jump (tos s) { pop s with intcon := setBit s.intcon 7 true }

/-- A return (R269, R270): PC from the stack. -/
def subroutineReturn (s : State) : State := jump (tos s) (pop s)

/-- What CLRWDT and SLEEP share: the watchdog is cleared, and the prescaler if it is the watchdog's (R264, R271). -/
def clearWdt (s : State) : State :=
  { s with
    wdt := 0
    t0 := { s.t0 with prescaler := if s.psa then 0 else s.t0.prescaler, counted := !s.psa && s.t0.counted } }

end Sys2Proof.Machine
end

