-- ==== Sys2Proof/Machine/Operands.lean ====
section
/-! DEFINITION. Operand forms: the effective address of `f` (20_memory.md R107-R110), the destination select, and the
shape the `f, d`, bit and literal instructions share (40_byte_oriented.md R200, R201; 41 R240, R245; 42 R260). -/

namespace Sys2Proof.Machine

/-- `ea(f)` (R110): direct through RP1:RP0, or for f = 0 indirect through IRP : FSR. -/
def ea (f : BitVec 7) (s : State) : DataAddr := if f = 0 then BitVec.ofBool s.irp ++ s.fsr else s.rp ++ f

/-- The cell an `f` operand names. -/
def operandReg (f : BitVec 7) (s : State) : Reg := resolve (ea f s)

/-- The value an `f` operand reads (R200). -/
def operandValue (f : BitVec 7) (s : State) : Byte := readValue (operandReg f s) s

/-- The result goes to W or back to the register (R200). -/
def putResult (d : Dest) (r : Reg) (v : Byte) (s : State) : State :=
  match d with
  | .toW => { s with w := v }
  | .toF => writeBack r v s

/-- PC was written as the destination, so it does not advance (R201 c). -/
def wrotePcl (d : Dest) (r : Reg) : Bool := d == .toF && r == .pcl

/-- The end of an instruction that may have written PCL (R200, R201 c). -/
def finish (pcl : Bool) (s : State) : State := if pcl then s else advance s

/-- The end of an instruction that may skip (R245); a write to PCL decides PC instead (log 14). -/
def finishSkip (pcl taken : Bool) (s : State) : State := if pcl then s else if taken then skip s else advance s

/-- An `f, d` operation up to PC: read, compute, write, flags (R200). -/
def fileEffect (f : BitVec 7) (d : Dest) (fn : Byte → Alu) (s : State) : State :=
  let r := operandReg f s
  let a := fn (readValue r s)
  putFlags a.flags (d == .toF && r == .status) (putResult d r a.value (readEffect r s))

/-- An `f, d` instruction (R200). -/
def fileOp (f : BitVec 7) (d : Dest) (fn : Byte → Alu) (s : State) : State :=
  finish (wrotePcl d (operandReg f s)) (fileEffect f d fn s)

/-- An `f, d` instruction that skips when its result is 0 (R208, R210). -/
def fileSkip (f : BitVec 7) (d : Dest) (fn : Byte → Byte) (s : State) : State :=
  finishSkip (wrotePcl d (operandReg f s)) (fn (operandValue f s) == 0) (fileEffect f d (fun v => plain (fn v)) s)

/-- A write of an `f` operand that is not read first (R204, R213, D21). -/
def fileWrite (f : BitVec 7) (v : Byte) (s : State) : State := memWrite (operandReg f s) v s

/-- A bit instruction that writes: a read-modify-write of the whole byte (R119, R241, R242). -/
def bitOp (f : BitVec 7) (b : BitVec 3) (set : Bool) (s : State) : State :=
  fileOp f .toF (fun v => plain (setBit v b.toNat set)) s

/-- A bit test: skip when bit `b` is `want` (R243, R244). The register is read with its side effects. -/
def bitSkip (f : BitVec 7) (b : BitVec 3) (want : Bool) (s : State) : State :=
  let r := operandReg f s
  finishSkip false ((readValue r s).getLsbD b.toNat == want) (readEffect r s)

/-- A literal operation: W takes the result (R260). -/
def literalOp (a : Alu) (s : State) : State := advance (putFlags a.flags false { s with w := a.value })

/-! ## The required sequence of the data EEPROM -/

/-- How far the sequence is when `i` is the instruction that now runs: the five instructions `MOVLW 55h`, `MOVWF EECON2`,
`MOVLW AAh`, `MOVWF EECON2`, `BSF EECON1, WR`, one after the other, and no other (R373, D31; log 36). -/
def unlockNext (i : Instr) (s : State) : Unlock :=
  match i with
  | .movlw k =>
    if k = 0x55 then .loaded55 else if k = 0xAA ∧ s.ee.unlock = .wrote55 then .loadedAA else .idle
  | .movwf f =>
    if operandReg f s ≠ .eecon2 then .idle
    else if s.ee.unlock = .loaded55 ∧ s.w = 0x55 then .wrote55
    else if s.ee.unlock = .loadedAA ∧ s.w = 0xAA then .wroteAA
    else .idle
  | .bsf f b => if operandReg f s = .eecon1 ∧ b = 1 ∧ s.ee.unlock = .wroteAA then .complete else .idle
  | _ => .idle

end Sys2Proof.Machine
end

