-- ==== Sys2Proof/Machine/BitOps.lean ====
section
/-! DEFINITION. The bit-oriented file register operations (41_bit_oriented.md). -/

namespace Sys2Proof.Machine

/-- BCF f, b (R241). -/
def execBcf (f : BitVec 7) (b : BitVec 3) (s : State) : Result := .next (bitOp f b false s)

/-- BSF f, b (R242). -/
def execBsf (f : BitVec 7) (b : BitVec 3) (s : State) : Result := .next (bitOp f b true s)

/-- BTFSC f, b (R243). -/
def execBtfsc (f : BitVec 7) (b : BitVec 3) (s : State) : Result := .next (bitSkip f b false s)

/-- BTFSS f, b (R244). -/
def execBtfss (f : BitVec 7) (b : BitVec 3) (s : State) : Result := .next (bitSkip f b true s)

end Sys2Proof.Machine
end

