-- ==== Sys2Proof/Machine/ByteOps.lean ====
section
/-! DEFINITION. The byte-oriented file register operations (40_byte_oriented.md), in TABLE 15-2's order. -/

namespace Sys2Proof.Machine

/-- ADDWF f, d (R202). -/
def execAddwf (f : BitVec 7) (d : Dest) (s : State) : Result := .next (fileOp f d (fun v => add s.w v) s)

/-- ANDWF f, d (R203). -/
def execAndwf (f : BitVec 7) (d : Dest) (s : State) : Result := .next (fileOp f d (fun v => withZ (s.w &&& v)) s)

/-- STATUS after CLRF: Z is set. `CLRF STATUS` leaves `000u u1uu`: DC and C as before the instruction (R50, R204). -/
def clrfStatus (r : Reg) (old written : Byte) : Byte :=
  setBit (if r = .status then merge 0x03 written old else written) 2 true

/-- CLRF f (R204): a write without a read (D21). -/
def execClrf (f : BitVec 7) (s : State) : Result :=
  let r := operandReg f s
  let s1 := fileWrite f 0x00 s
  .next (finish (r == .pcl) { s1 with status := clrfStatus r s.status s1.status })

/-- CLRW (R205). -/
def execClrw (s : State) : Result := .next (literalOp (withZ 0x00) s)

/-- COMF f, d (R206). -/
def execComf (f : BitVec 7) (d : Dest) (s : State) : Result := .next (fileOp f d (fun v => withZ (~~~v)) s)

/-- DECF f, d (R207). -/
def execDecf (f : BitVec 7) (d : Dest) (s : State) : Result := .next (fileOp f d (fun v => withZ (v - 1)) s)

/-- DECFSZ f, d (R208): the decremented value is tested. -/
def execDecfsz (f : BitVec 7) (d : Dest) (s : State) : Result := .next (fileSkip f d (fun v => v - 1) s)

/-- INCF f, d (R209). -/
def execIncf (f : BitVec 7) (d : Dest) (s : State) : Result := .next (fileOp f d (fun v => withZ (v + 1)) s)

/-- INCFSZ f, d (R210): the incremented value is tested. -/
def execIncfsz (f : BitVec 7) (d : Dest) (s : State) : Result := .next (fileSkip f d (fun v => v + 1) s)

/-- IORWF f, d (R211). -/
def execIorwf (f : BitVec 7) (d : Dest) (s : State) : Result := .next (fileOp f d (fun v => withZ (s.w ||| v)) s)

/-- MOVF f, d (R212). -/
def execMovf (f : BitVec 7) (d : Dest) (s : State) : Result := .next (fileOp f d withZ s)

/-- MOVWF f (R213): a write without a read (D21). -/
def execMovwf (f : BitVec 7) (s : State) : Result := .next (finish (operandReg f s == .pcl) (fileWrite f s.w s))

/-- NOP (R214). -/
def execNop (s : State) : Result := .next (advance s)

/-- RLF f, d (R215). -/
def execRlf (f : BitVec 7) (d : Dest) (s : State) : Result := .next (fileOp f d (rotateLeft s.c) s)

/-- RRF f, d (R216). -/
def execRrf (f : BitVec 7) (d : Dest) (s : State) : Result := .next (fileOp f d (rotateRight s.c) s)

/-- SUBWF f, d (R217): f minus W. -/
def execSubwf (f : BitVec 7) (d : Dest) (s : State) : Result := .next (fileOp f d (fun v => sub v s.w) s)

/-- SWAPF f, d (R218). -/
def execSwapf (f : BitVec 7) (d : Dest) (s : State) : Result := .next (fileOp f d (fun v => plain (swapNibbles v)) s)

/-- XORWF f, d (R219). -/
def execXorwf (f : BitVec 7) (d : Dest) (s : State) : Result := .next (fileOp f d (fun v => withZ (s.w ^^^ v)) s)

end Sys2Proof.Machine
end

