-- ==== Sys2Proof/Machine/LiteralControl.lean ====
section
/-! DEFINITION. The literal and control operations (42_literal_control.md), in TABLE 15-2's order, and OPTION. -/

namespace Sys2Proof.Machine

/-- ADDLW k (R261). -/
def execAddlw (k : Byte) (s : State) : Result := .next (literalOp (add s.w k) s)

/-- ANDLW k (R262). -/
def execAndlw (k : Byte) (s : State) : Result := .next (literalOp (withZ (s.w &&& k)) s)

/-- CALL k (R263): all 13 bits of PC + 1 are pushed. -/
def execCall (k : BitVec 11) (s : State) : Result := .next (jump (pageTarget k s) (push (s.pc + 1) s))

/-- CLRWDT (R264). -/
def execClrwdt (s : State) : Result :=
  .next (advance { clearWdt s with status := setToPd true true s.status })

/-- GOTO k (R265). -/
def execGoto (k : BitVec 11) (s : State) : Result := .next (jump (pageTarget k s) s)

/-- IORLW k (R266). -/
def execIorlw (k : Byte) (s : State) : Result := .next (literalOp (withZ (s.w ||| k)) s)

/-- MOVLW k (R267). -/
def execMovlw (k : Byte) (s : State) : Result := .next (literalOp (plain k) s)

/-- RETFIE (R268). -/
def execRetfie (s : State) : Result := .next (interruptReturn s)

/-- RETLW k (R269). -/
def execRetlw (k : Byte) (s : State) : Result := .next (subroutineReturn { s with w := k })

/-- RETURN (R270). -/
def execReturn (s : State) : Result := .next (subroutineReturn s)

/-- SLEEP (R271): a NOP when a wake condition is already true; else the core sleeps, with TO = 1 and PD = 0. -/
def execSleep (s : State) : Result :=
  .next
    (if wake s then advance s
     else advance { clearWdt s with status := setToPd true false s.status, sleeping := true })

/-- SUBLW k (R272): k minus W. -/
def execSublw (k : Byte) (s : State) : Result := .next (literalOp (sub k s.w) s)

/-- XORLW k (R273). -/
def execXorlw (k : Byte) (s : State) : Result := .next (literalOp (withZ (s.w ^^^ k)) s)

/-- OPTION (R276): `MemWrite(081h, 1, W)`, whatever the bank bits are. -/
def execOption (s : State) : Result := .next (advance (memWrite .option s.w s))

end Sys2Proof.Machine
end

