-- ==== Sys2Proof/Machine/Environment.lean ====
section
/-! DEFINITION. What moves beside the CPU: an instruction cycle of the on-chip agents, the pins' edges, resets, and the
environment's events (70_reset_and_hazards.md R400-R404, R430; 92_eei_decisions.md D15, D17-D19). -/

namespace Sys2Proof.Machine

/-! ## One instruction cycle -/

/-- The cycle count of the data EEPROM's write (R375, D19). -/
def eeCycle (e : Eeprom) : Eeprom :=
  { e with write := e.write.map fun w => { w with cycles := min 2 (w.cycles + 1) } }

/-- The nine bits of a frame to send: TX9D above TXREG if TX9 = 1 (R63, R379). That a frame of eight bits carries a 0 as its
ninth is DESIGN CHOICE, unsafe: log 53. -/
def txFrame (u : Usart) : BitVec 9 := BitVec.ofBool (u.txsta.getLsbD 6 && u.txsta.getLsbD 0) ++ u.txreg

/-- The byte in TXREG moves to an empty transmit shift register (R379). TX9 and TX9D are taken for the frame at this moment
(DESIGN CHOICE, unsafe: log 53). -/
def txLoad (u : Usart) : Usart :=
  if u.txFull && u.tsr.isNone then { u with tsr := some (txFrame u), txFull := false } else u

/-- The transmitter in one instruction cycle: with SPEN = TXEN = 1 it takes the byte in TXREG; TXIF is 1 whenever TXREG is
empty (R310, R379; log 35). -/
def txCycle (s : State) : State :=
  let u := if s.spen && s.txen then txLoad s.usart else s.usart
  { s with usart := u, pir1 := setBit s.pir1 4 (!u.txFull) }

/-- One instruction cycle of every on-chip agent that counts them (R430). While the core sleeps the instruction clock stops
for the timers and the transmitter (R344, R347, R382), SLEEP's own cycle included (DESIGN CHOICE, unsafe: log 50). -/
def tick (s : State) : State :=
  let s1 := { s with ee := eeCycle s.ee }
  if s.sleeping then s1 else txCycle (t2Cycle (t1Cycle (t0Cycle s1)))

/-- `n` instruction cycles. -/
def tickN : Nat → State → State
  | 0, s => s
  | n + 1, s => tickN n (tick s)

/-! ## Pin edges -/

/-- Bit `i` rises from `old` to `new`. -/
def rises (old new : Byte) (i : Nat) : Bool := !old.getLsbD i && new.getLsbD i

/-- Bit `i` falls from `old` to `new`. -/
def falls (old new : Byte) (i : Nat) : Bool := old.getLsbD i && !new.getLsbD i

/-- Timer0 in counter mode: an edge of RA4/T0CKI that T0SE selects, unless the core sleeps or the increment is inhibited
(R342, R346, R347; log 20). -/
def t0Edge (new : Byte) (s : State) : State :=
  let edge := if s.t0se then falls s.io.seenA new 4 else rises s.io.seenA new 4
  if s.t0cs && edge && !s.sleeping && s.t0.inhibit == 0 then t0Clock s else s

/-- Timer1 in counter mode: a falling edge arms it, a rising edge then counts; while the core sleeps only in
Asynchronous Counter mode (R352, R355; log 24). -/
def t1Edge (new : Bool) (s : State) : State :=
  if s.t1counter && (s.t1async || !s.sleeping) then
    if s.io.seenClk && !new then { s with t1 := { s.t1 with armed := true } }
    else if !s.io.seenClk && new && s.t1.armed then t1Clock s
    else s
  else s

/-- The capture modes: edges of RB3/CCP1 (R61). -/
def captureEdge (new : Byte) (s : State) : State :=
  match s.ccpMode with
  | 0b0100 => if falls s.io.seenB new 3 then capture s else s
  | 0b0101 => if rises s.io.seenB new 3 then capture s else s
  | 0b0110 => if rises s.io.seenB new 3 then captureEvery 4 s else s
  | 0b0111 => if rises s.io.seenB new 3 then captureEvery 16 s else s
  | _ => s

/-- The RB0/INT pin: the edge that INTEDG selects sets INTF (R314). -/
def intEdge (new : Byte) (s : State) : State :=
  if (if s.intedg then rises s.io.seenB new 0 else falls s.io.seenB new 0) then raiseIntcon intf s else s

/-- An input among RB7:RB4 differs from its value at the last read of PORTB: RBIF is set (R310, R315). -/
def portChange (new : Byte) (s : State) : State :=
  if (new ^^^ s.io.change) &&& inputsB s &&& 0xF0 ≠ 0 then raiseIntcon rbif s else s

/-- A comparator output differs from its value at the last read of CMCON: CMIF is set (R310). -/
def comparatorChange (s : State) : State :=
  if s.cmp.con.extractLsb' 6 2 ≠ s.cmp.last then raisePir1 cmif s else s

/-- The pin levels are remembered for the next sample. -/
def remember (a b : Byte) (clk : Bool) (s : State) : State :=
  { s with io := { s.io with seenA := a, seenB := b, seenClk := clk } }

/-- The pins are sampled at an instruction boundary and what hangs on their edges and levels happens (R342: "may apply
an edge at the next instruction boundary"). Where one sample shows both a clock edge of Timer1 and a capture edge of RB3,
no rule gives an order: Timer1 counts first and the capture takes the new count (DESIGN CHOICE, unsafe: log 56). -/
def sample (s : State) : State :=
  let a := pinsA s
  let b := pinsB s
  let clk := clockT1 s
  remember a b clk
    (comparatorChange (portChange b (intEdge b (captureEdge b (t1Edge clk (t0Edge a s))))))

/-- The instruction has ended: Timer0's write inhibit begins to run (R346; log 20). -/
def endWrite (s : State) : State := { s with t0 := { s.t0 with wrote := false } }

/-- What follows the effect of an instruction or an interrupt entry: its cycles pass and the pins are sampled (log 19). -/
def finishStep (s : State) : State := sample (endWrite (tickN s.cycles s))

/-! ## Resets -/

/-- Why the device resets (R400). -/
inductive ResetCause where
  | por
  | mclr
  | wdt
  | bod
deriving DecidableEq, Repr

/-- STATUS after a reset (R404). `v` gives the bits R404 prints x: after a brown-out TO and PD; after a power-on reset
Z, DC, C are the model's (log 40). -/
def resetStatus (c : ResetCause) (v : Byte) (s : State) : Byte :=
  match c with
  | .por => State.reset.status
  | .mclr => if s.sleeping then (s.status &&& 0x07) ||| 0x10 else s.status &&& 0x1F
  | .wdt => s.status &&& 0x0F
  | .bod => merge 0x18 (s.status &&& 0x07) v

/-- PCON after a reset (R404). -/
def resetPcon (c : ResetCause) (s : State) : Byte :=
  match c with
  | .por => State.reset.pcon
  | .mclr | .wdt => (s.pcon &&& 0x03) ||| 0x08
  | .bod => (s.pcon &&& 0x02) ||| 0x08

/-- The EEPROM array keeps its content; the cell of an aborted write takes the open value `v` (R78, R375, U10). -/
def resetCells (v : Byte) (e : Eeprom) : List Host.Cell :=
  match e.write with
  | none => e.cells
  | some w => Memory.write eeBlank e.cells w.addr.toNat v

/-- The registers of a power-on reset (R90; the values that R90 leaves open are those of State.reset: log 40). The
program, the EEPROM array and the outside of the pins stay; `v` is the aborted write's open value. -/
def powerOnReset (v : Byte) (s : State) : State :=
  { State.reset with
    prog := s.prog
    ee := { State.reset.ee with cells := resetCells v s.ee }
    usart := { State.reset.usart with sent := s.usart.sent }
    io :=
      { State.reset.io with
        extA := s.io.extA
        extB := s.io.extB
        forceA := s.io.forceA
        forceB := s.io.forceB
        osc := s.io.osc }
    freeIx := s.freeIx + 1
    env := s.env }

/-- The registers of every other reset (R90 column "other", R403, R404). The three draws give the bits R90 prints x
(RX9D, PORTA's latch), TO and PD after a brown-out, and the cell of an aborted EEPROM write. WRERR, printed q, is set if a
write was aborted (R64) and else keeps its value (DESIGN CHOICE, unsafe: log 51). -/
def otherReset (c : ResetCause) (s : State) : State :=
  let bits := Config.freeByte s.freeIx
  let latch := Config.freeByte (s.freeIx + 1)
  let cell := Config.freeByte (s.freeIx + 2)
  { s with
    pc := Config.resetVector
    sp := 0
    status := resetStatus c bits s
    pclath := 0
    sleeping := false
    prefetched := false
    intcon := s.intcon &&& 0x01
    pir1 := 0
    pie1 := 0
    option := 0xFF
    pcon := resetPcon c s
    wdt := 0
    t0 := { tmr0 := s.t0.tmr0, prescaler := 0, counted := false, inhibit := 0, wrote := false }
    t2 := State.reset.t2
    ccp := { s.ccp with con := 0, out := false, pre := 0 }
    usart := { State.reset.usart with rcsta := bits &&& 0x01, rsr := s.usart.rsr, sent := s.usart.sent }
    cmp := State.reset.cmp
    ee :=
      { s.ee with
        con1 := if s.ee.write.isSome then 0x08 else s.ee.con1 &&& 0x08
        cells := resetCells cell s.ee
        unlock := .idle
        write := none }
    io :=
      { s.io with
        latA := (latch &&& 0xF0) ||| (s.io.latA &&& 0x08)
        trisA := 0b11011111
        trisB := 0xFF }
    cycles := 0
    rmw := .none
    irqHeld := 0
    freeIx := s.freeIx + 3 }

/-- A reset (R401). The pin levels it leaves are remembered, so the reset itself makes no edge (log 39). -/
def takeReset (c : ResetCause) (s : State) : State :=
  let t := if c = .por then powerOnReset s.free s else otherReset c s
  remember (pinsA t) (pinsB t) (clockT1 t) t

/-! ## Events -/

/-- The receiver is on: SPEN = 1, SYNC = 0, CREN or SREN set, no overrun (R62, R366, R368; log 34), and the core awake,
since asynchronous reception is none of R383's sources that can occur while sleeping. After an overrun reception stays
stopped, whatever SREN is, until CREN has been cleared and set again (R366; log 55). -/
def receiving (s : State) : Bool :=
  !s.sleeping && s.spen && !s.usart.txsta.getLsbD 4 && (s.usart.rcsta.getLsbD 4 || s.usart.rcsta.getLsbD 5) &&
    !s.usart.rcsta.getLsbD 1 && !s.usart.rxStopped

/-- The byte a frame carries, with what belongs to it (R366, R368, R369). -/
def rxByte (rcsta : Byte) (bits : BitVec 9) (stop : Bool) : RxByte :=
  { data := bits.extractLsb' 0 8
    ninth := if rcsta.getLsbD 6 then some (bits.getLsbD 8) else none
    framing := !stop }

/-- A byte enters the receive buffer; its status shows when it is the oldest (R366). -/
def rxPush (b : RxByte) (u : Usart) : Usart :=
  match u.fifo with
  | [] => { u with fifo := [b], rcsta := headStatus b u.rcsta }
  | fifo => { u with fifo := fifo ++ [b] }

/-- A frame completes in RSR (R366, R368, R369): with RX9 = ADEN = 1 a data byte is ignored; a third byte is an
overrun that stops reception, and that byte stays in RSR and is lost (DESIGN CHOICE, unsafe: log 54). -/
def receiveFrame (bits : BitVec 9) (stop : Bool) (u : Usart) : Usart :=
  let u1 := { u with rsr := bits }
  if u.rcsta.getLsbD 6 && u.rcsta.getLsbD 3 && !bits.getLsbD 8 then u1
  else if 2 ≤ u.fifo.length then { u1 with rcsta := setBit u1.rcsta 1 true, rxStopped := true }
  else rxPush (rxByte u.rcsta bits stop) u1

/-- The transmit shift register has sent its frame (R379). -/
def sendFrame (u : Usart) : Usart :=
  match u.tsr with
  | none => u
  | some f => { u with sent := f :: u.sent, tsr := none }

/-- The EEPROM write cycle completes (R375), not before a whole cycle has passed since the one that set WR (D19, log 38). -/
def eeComplete (s : State) : State :=
  match s.ee.write with
  | none => s
  | some w =>
    if 2 ≤ w.cycles then
      raisePir1 eeif
        { s with
          ee :=
            { s.ee with
              cells := Memory.write eeBlank s.ee.cells w.addr.toNat w.data
              write := none } }
    else s

/-- The watchdog may time out (R380): WDTE = 1, and a boundary has passed since the last clear. -/
def wdtMayExpire (s : State) : Bool := Config.wdte && decide (1 ≤ s.wdt)

/-- A watchdog time-out: a wake-up of a sleeping core (R385), a reset of an awake one (R381). Its count then starts again
(log 18). -/
def wdtTimeout (s : State) : State :=
  if s.sleeping then
    { s with status := setBit s.status 4 false, sleeping := false, prefetched := true, wdt := 0 }
  else takeReset .wdt s

/-- An event of the environment, at an instruction boundary (D15). While the core sleeps the oscillator is off and no frame
ends (R382; log 35). -/
def applyEvent (e : EnvEvent) (s : State) : State :=
  match e with
  | .pins a b fa fb => sample { s with io := { s.io with extA := a, extB := b, forceA := fa, forceB := fb } }
  | .crystal level => sample { s with io := { s.io with osc := level } }
  | .comparators c2 c1 => sample { s with cmp := { s.cmp with con := setBit (setBit s.cmp.con 7 c2) 6 c1 } }
  | .falseCmif v => if s.cmp.moved then { s with pir1 := setBit s.pir1 6 v } else s
  | .frame bits stop => if receiving s then { s with usart := receiveFrame bits stop s.usart } else s
  | .frameSent => if s.sleeping then s else { s with usart := sendFrame s.usart }
  | .eeDone => eeComplete s
  | .wdtClock =>
    if Config.wdte && s.psa then
      { s with t0 := { s.t0 with prescaler := s.t0.prescaler + 1, counted := true } }
    else s
  | .wdtTimeout => if wdtMayExpire s then wdtTimeout s else s
  | .mclr => if Config.mclre then takeReset .mclr s else s
  | .brownOut => if Config.boden then takeReset .bod s else s
  | .powerOn => takeReset .por s

/-- An event as one entry of the schedule. Without `race` it falls after the instruction's last cycle, so it races with
no read-modify-write (R120, U12). -/
def eventStep (race : Bool) (e : EnvEvent) (s : State) : State :=
  lapse (applyEvent e (if race then s else { s with rmw := .none }))

end Sys2Proof.Machine
end

