-- ==== Sys2Proof/Machine/Fetch.lean ====
section
/-! DEFINITION. One move of the CPU: fetch and run an instruction, take an interrupt, or sleep (20_memory.md R100, R125;
60_exceptions.md R320, R321, R382-R384). -/

namespace Sys2Proof.Machine

/-- The word address a fetch at `pc` reads, if it reads one (R37, D2). -/
def fetchAddr (pc : CodeAddr) : Option Nat :=
  if pc.toNat < Config.progWords then some pc.toNat
  else
    match Config.fetchAboveImplemented with
    | .fault => none
    | .wrap => some (pc.toNat % Config.progWords)

/-- The instruction a word executes as: its row's, or for an unlisted word what the parameter says (R159, D7). -/
def fetched (w : InsnWord) : Option Instr :=
  match decode w with
  | some i => some i
  | none => Config.unlistedOpcode w

/-- What stands at PC: an instruction, or the fault that the fetch ends in (D2, D32, D7). -/
def fetch (s : State) : Except Fault Instr :=
  match fetchAddr s.pc with
  | none => .error (.fetchOutside s.pc)
  | some a =>
    match Memory.find s.prog a with
    | none => .error (.undefinedWord s.pc)
    | some w =>
      match fetched w with
      | none => .error (.unlistedOpcode w)
      | some i => .ok i

/-- The fields that change as an instruction begins: a boundary has passed for the watchdog (R380), the interrupts that
are requested now are held for this instruction (R321), and it carries the EEPROM's required sequence on or breaks it
(R373). -/
def beginInstr (i : Instr) (s : State) : State :=
  { s with
    prefetched := false
    irqHeld := requests s
    rmw := .none
    wdt := s.wdt + 1
    cmp := { s.cmp with moved := false }
    ee := { s.ee with unlock := unlockNext i s } }

/-- The interrupt is taken (R320) and its two cycles pass (D36). -/
def takeInterrupt (s : State) : State :=
  finishStep
    (interruptEntry
      { s with
        irqHeld := 0
        rmw := .none
        wdt := s.wdt + 1
        cmp := { s.cmp with moved := false } })

/-- An interrupt is pending and is taken now: not before the instruction prefetched before a SLEEP (R384), and `hold`
lets one instruction run first, if none has run past any of the requests (R321, D20; log 15). -/
def interruptDue (hold : Bool) (s : State) : Bool :=
  irq s && !s.prefetched && !(hold && s.irqHeld &&& requests s == 0)

/-- A sleeping core wakes if the wake condition holds (R383, R384); else nothing executes (R382, D28). -/
def sleepStep (s : State) : State :=
  if wake s then { s with sleeping := false, prefetched := true } else { s with wdt := s.wdt + 1 }

/-- Run `exec` on an instruction and let its cycles pass (R430). -/
def runInstr (i : Instr) (s : State) : Result :=
  match exec i (beginInstr i s) with
  | .next t => .next (finishStep (lapse t))
  | .fault r => .fault r
  | .refused r => .refused r

/-- One move of the CPU. -/
def cpuStep (hold : Bool) (s : State) : Result :=
  if s.sleeping then .next (sleepStep s)
  else if interruptDue hold s then .next (takeInterrupt s)
  else
    match fetch s with
    | .error r => .fault r
    | .ok i => runInstr i s

end Sys2Proof.Machine
end

