-- ==== Sys2Proof/Machine/Step.lean ====
section
/-! DEFINITION. The step, and how the host places an instruction where the step fetches. -/

namespace Sys2Proof.Machine

/-- One step: the head of the schedule says who moves, the CPU when the schedule is empty (20_memory.md R125, D18; log 1). -/
def step (s : State) : Host.Outcome State Fault Refusal :=
  match s.env with
  | [] => cpuStep false s
  | .run :: rest => cpuStep false { s with env := rest }
  | .hold :: rest => cpuStep true { s with env := rest }
  | .event race e :: rest => .next (eventStep race e { s with env := rest })

/-- The word `w` stands at PC and the next step runs it: the core is awake, PC lies in implemented memory, and the
schedule lets a pending interrupt wait (log 44). -/
def State.withFetchWord (s : State) (nbits w : Nat) : State :=
  { s with
    prog := Memory.insert s.prog (s.pc.toNat % Config.progWords) (BitVec.ofNat 14 (w % 2 ^ nbits))
    pc := BitVec.ofNat 13 (s.pc.toNat % Config.progWords)
    sleeping := false
    irqHeld := 0
    env := [.hold] }

end Sys2Proof.Machine
end

