-- ==== Sys2Proof/Safety.lean ====
section
/-! DEFINITION. The terms in which claims speak of the machine: the invariant of its states, a safe run, where an
instruction stores, what a read or a write of a register leaves alone, and what flags leave in STATUS. -/

namespace Sys2Proof.Machine

/-! ## The invariant -/

/-- The write inhibit counts down from 2 (60_exceptions.md R346). -/
def Timer0.ok (t : Timer0) : Prop := t.inhibit ≤ 2

/-- T1CON<7:6> read 0 (10_state.md R92); the prescaler counts to at most 8 (R75). -/
def Timer1.ok (t : Timer1) : Prop := t.con &&& 0xC0 = 0 ∧ t.pre < 8

/-- T2CON<7> reads 0 (R92); prescaler and postscaler count to at most 16 (R60, R75). -/
def Timer2.ok (t : Timer2) : Prop := t.con &&& 0x80 = 0 ∧ t.pre < 16 ∧ t.post < 16

/-- CCP1CON<7:6> read 0 (R92); at most 16 edges are counted (R61). -/
def Ccp.ok (c : Ccp) : Prop := c.con &&& 0xC0 = 0 ∧ c.pre < 16

/-- TXSTA<3> reads 0 (R92); the receive buffer is two bytes deep, and under OERR reception is stopped, which with CREN set
it is only under OERR (R366; log 55). -/
def Usart.ok (u : Usart) : Prop :=
  u.txsta &&& 0x08 = 0 ∧ u.fifo.length ≤ 2 ∧ (u.rcsta.getLsbD 1 = true → u.rxStopped = true) ∧
    (u.rxStopped = true → u.rcsta.getLsbD 4 = true → u.rcsta.getLsbD 1 = true)

/-- VRCON<4> reads 0 (R92). -/
def Comparators.ok (c : Comparators) : Prop := c.vrcon &&& 0x10 = 0

/-- EECON1<7:4> read 0 (R92), RD and WR are kept elsewhere (R371, R374); the array has 128 bytes (20_memory.md R103) in
canonical form. -/
def Eeprom.ok (e : Eeprom) : Prop :=
  e.con1 &&& 0xF3 = 0 ∧ (∀ w, e.write = some w → w.cycles ≤ 2) ∧
    Memory.wf eeBlank e.cells = true ∧ ∀ c ∈ e.cells, c.1 < 128

/-- TRISA<5> reads 0 (R92). -/
def Ports.ok (p : Ports) : Prop := p.trisA &&& 0x20 = 0

/-- What holds of every state the machine can be in: memories in canonical form and within the implemented addresses
(20_memory.md R100, R101, R103), unimplemented bits 0 (R92), counters in range, OERR with the stop of
reception it means (60_exceptions.md R366), and no core that sleeps and has woken (R384). -/
structure State.Inv (s : State) : Prop where
  ram_wf : Memory.wf ramBlank s.ram = true
  ram_addr : ∀ c ∈ s.ram, gprAddr c.1 = true
  prog_rising : Memory.rising s.prog = true
  prog_addr : ∀ c ∈ s.prog, c.1 < Config.progWords
  pir1 : s.pir1 &&& 0x28 = 0
  pie1 : s.pie1 &&& 0x08 = 0
  pcon : s.pcon &&& 0xF4 = 0
  t0 : s.t0.ok
  t1 : s.t1.ok
  t2 : s.t2.ok
  ccp : s.ccp.ok
  usart : s.usart.ok
  cmp : s.cmp.ok
  ee : s.ee.ok
  io : s.io.ok
  awake : s.prefetched = true → s.sleeping = false

/-! ## Safe runs -/

/-- The machine does not stop at its next step. -/
def SafeStep (s : State) : Prop := ∃ t, step s = .next t

/-- The machine makes `n` steps without stopping. -/
def SafeRun (n : Nat) (s : State) : Prop := ∃ t, Host.Core.run Sys2Proof.core n s = .next t

/-! ## What an instruction writes -/

/-- The register of data memory an instruction writes, if it writes one (40_byte_oriented.md R200, 41 R240). -/
def storeReg (i : Instr) (s : State) : Option Reg :=
  match i with
  | .addwf f .toF | .andwf f .toF | .comf f .toF | .decf f .toF | .decfsz f .toF | .incf f .toF | .incfsz f .toF
  | .iorwf f .toF | .movf f .toF | .rlf f .toF | .rrf f .toF | .subwf f .toF | .swapf f .toF | .xorwf f .toF
  | .clrf f | .movwf f | .bcf f _ | .bsf f _ => some (operandReg f s)
  | .option => some .option
  | _ => none

/-- The instruction writes W (10_state.md R30). -/
def writesW (i : Instr) : Bool :=
  match i with
  | .addwf _ .toW | .andwf _ .toW | .comf _ .toW | .decf _ .toW | .decfsz _ .toW | .incf _ .toW | .incfsz _ .toW
  | .iorwf _ .toW | .movf _ .toW | .rlf _ .toW | .rrf _ .toW | .subwf _ .toW | .swapf _ .toW | .xorwf _ .toW
  | .clrw | .addlw _ | .andlw _ | .iorlw _ | .movlw _ | .retlw _ | .sublw _ | .xorlw _ => true
  | _ => false

/-- What `t` keeps of `s` when `t` is `s` after a write of `v` to one register: the register's own field changes, with the side
effects 20_memory.md R113 gives the write, and nothing else. `f := t.f` leaves a field's own value to the statement about it. -/
def StoreFrame (r : Reg) (v : Byte) (s t : State) : Prop :=
  match r with
  | .indf | .none | .eecon2 => t = s
  | .tmr0 =>
    t = { s with
          t0 :=
            { tmr0 := v
              prescaler := if s.option.getLsbD 3 then s.t0.prescaler else 0
              counted := t.t0.counted
              inhibit := 2
              wrote := t.t0.wrote } }
  | .pcl => t = { s with pc := s.pclath ++ v, cycles := 2 }
  | .status => t = { s with status := t.status }
  | .fsr => t = { s with fsr := v }
  | .porta => t = { s with io := { s.io with latA := v } }
  | .portb =>
    t = { s with io := { s.io with latB := v, change := t.io.change }, freeIx := t.freeIx } ∧
      (t.io.change = s.io.change ∨ t.io.change = pinsB s)
  | .pclath => t = { s with pclath := t.pclath }
  | .intcon => t = { s with intcon := v }
  | .pir1 => t = { s with pir1 := t.pir1 }
  | .tmr1l => t = { s with t1 := { s.t1 with lo := v, pre := 0 } }
  | .tmr1h => t = { s with t1 := { s.t1 with hi := v, pre := 0 } }
  | .t1con => t = { s with t1 := { s.t1 with con := v &&& 0x3F, armed := t.t1.armed } }
  | .tmr2 => t = { s with t2 := { s.t2 with tmr := v, pre := 0, post := 0 } }
  | .t2con => t = { s with t2 := { s.t2 with con := v &&& 0x7F, pre := 0, post := 0 } }
  | .ccpr1l => t = { s with ccp := { s.ccp with lo := v } }
  | .ccpr1h => t = { s with ccp := { s.ccp with hi := t.ccp.hi } }
  | .ccp1con =>
    t = { s with ccp := { s.ccp with con := v &&& 0x3F, out := t.ccp.out, pre := t.ccp.pre } } ∧
      t.ccp.out = (if v &&& 0x3F = 0 then false else s.ccp.out)
  | .rcsta =>
    t = { s with usart := { s.usart with rcsta := t.usart.rcsta, rxStopped := t.usart.rxStopped } } ∧
      (t.usart.rxStopped = true ↔
        s.usart.rxStopped = true ∧ (v.getLsbD 4 = false ∨ s.usart.rcsta.getLsbD 1 = true))
  | .txreg => t = { s with pir1 := s.pir1 &&& 0xEF, usart := { s.usart with txreg := v, txFull := true } }
  | .rcreg => t = { s with usart := { s.usart with rcreg := v } }
  | .cmcon => t = { s with cmp := { s.cmp with con := t.cmp.con, moved := t.cmp.moved } }
  | .option =>
    t = { s with
          option := v, t0 := { s.t0 with tmr0 := t.t0.tmr0 }, intcon := t.intcon, freeIx := t.freeIx } ∧
      (v.getLsbD 3 = s.option.getLsbD 3 → t = { s with option := v })
  | .trisa => t = { s with io := { s.io with trisA := t.io.trisA } }
  | .trisb => t = { s with io := { s.io with trisB := v } }
  | .pie1 => t = { s with pie1 := t.pie1 }
  | .pcon => t = { s with pcon := t.pcon }
  | .pr2 => t = { s with t2 := { s.t2 with pr := v } }
  | .txsta => t = { s with usart := { s.usart with txsta := t.usart.txsta } }
  | .spbrg => t = { s with usart := { s.usart with spbrg := v } }
  | .eedata => t = { s with ee := { s.ee with data := v } }
  | .eeadr => t = { s with ee := { s.ee with adr := v } }
  | .eecon1 =>
    t = { s with
          ee := { s.ee with con1 := v &&& 0x0C, data := t.ee.data, unlock := t.ee.unlock, write := t.ee.write }
          freeIx := t.freeIx } ∧
      (v &&& 0x03 = 0 → t = { s with ee := { s.ee with con1 := v &&& 0x0C } })
  | .vrcon => t = { s with cmp := { s.cmp with vrcon := t.cmp.vrcon } }
  | .gpr _ => t = { s with ram := t.ram }

/-- What `t` is when `t` is `s` after a read of one register: PORTB and CMCON remember what later changes are compared with
(60_exceptions.md R310, R315), RCREG loses its oldest byte and the next one comes to the head with its FERR and RX9D
(R366), and no other read does anything (20_memory.md R112, which does not name CMCON: log 45). -/
def ReadFrame (r : Reg) (s t : State) : Prop :=
  match r with
  | .portb => t = { s with io := { s.io with change := pinsB s } }
  | .cmcon => t = { s with cmp := { s.cmp with last := s.cmp.con.extractLsb' 6 2 } }
  | .rcreg =>
    match s.usart.fifo with
    | [] => t = { s with freeIx := t.freeIx }
    | [_] => t = { s with usart := { s.usart with fifo := [], drained := true } }
    | _ :: b :: rest =>
      t = { s with usart := { s.usart with fifo := b :: rest, drained := true, rcsta := t.usart.rcsta } } ∧
        t.usart.rcsta &&& 0xFA = s.usart.rcsta &&& 0xFA ∧ t.usart.rcsta.getLsbD 2 = b.framing ∧
        (∀ n, b.ninth = some n → t.usart.rcsta.getLsbD 0 = n) ∧ peek .rcreg t = b.data
  | _ => t = s

/-- STATUS with the flags Z, DC, C in bits 2, 1, 0 and bits 7:3 of `old` (10_state.md R44). -/
def statusOf (old : Byte) (z dc c : Bool) : Byte :=
  old.extractLsb' 3 5 ++ BitVec.ofBool z ++ BitVec.ofBool dc ++ BitVec.ofBool c

/-- What an instruction of format `f, d` leaves when its result is `res` and its flags turn STATUS into `flags` of it. `s1`
is the state after the operand is read. With d = 0 W takes the result; with d = 1 the register is written, and a
write of PCL is a jump of two cycles (40_byte_oriented.md R200, R201). Nothing else changes. -/
def afterFile (d : Dest) (r : Reg) (res : Byte) (flags : Byte → Byte) (s1 : State) : State :=
  match d with
  | .toW => { s1 with w := res, status := flags s1.status, pc := s1.pc + 1, cycles := 1 }
  | .toF =>
    let s2 := memWrite r res s1
    if r = .pcl then
      { s1 with pc := s1.pclath ++ res, status := flags s1.status, cycles := 2, rmw := .none }
    else { s2 with status := flags s2.status, pc := s1.pc + 1, cycles := 1, rmw := rmwOf r }

/-- The form `f, d` of an instruction whose destination is not STATUS, or that lists no flag (R50). -/
def plainDest (d : Dest) (r : Reg) : Prop := d = .toF → r ≠ .status

/-- What an instruction of format `f, d` with d = 1 leaves when f is STATUS: bits 7:5 of the result, TO and PD as they
were, each listed flag as computed; the other flags are open (10_state.md R50, 93_implementation_defined.md U6). -/
def StatusWritten (res : Byte) (c dc z : Option Bool) (s t : State) : Prop :=
  t.status.extractLsb' 5 3 = res.extractLsb' 5 3 ∧ t.status.extractLsb' 3 2 = s.status.extractLsb' 3 2 ∧
    (∀ b, z = some b → t.z = b) ∧ (∀ b, dc = some b → t.dc = b) ∧ (∀ b, c = some b → t.c = b) ∧
    t = { s with
          status := t.status, freeIx := t.freeIx, pc := s.pc + 1, cycles := 1, rmw := .none }

end Sys2Proof.Machine
end

