-- ==== Sys2Proof/Certificates/Slice0/Obligations.lean ====
section
/-! DEFINITION. The statements for the provers. `Reg`, `operandReg`, `readValue`, `readEffect` and `memWrite` are the model's
operand address, read and write (Machine/Operands.lean, Machine/Ops.lean); the results are written from the rules. -/

open Sys2Proof Sys2Proof.Machine

/-! ## Encoding -/

/-- Decoding what the encoder writes gives the instruction back (R168). -/
def Obligations.DecodeOfEncodeIsIdentity : Prop :=
  ∀ i : Instr, i.WellFormed → decode (encode i) = some i

/-- The opcode map, row by row: Base and Mask as R150 prints them, the FIXED words of R151, operands as R148, R149 cut
them. -/
def Obligations.WordsOfEachOpcodeRow : Prop :=
  ∀ w : InsnWord,
    let f : BitVec 7 := w.extractLsb' 0 7
    let d : Dest := if w.getLsbD 7 then .toF else .toW
    let b : BitVec 3 := w.extractLsb' 7 3
    let k : Byte := w.extractLsb' 0 8
    let a : BitVec 11 := w.extractLsb' 0 11
    (w &&& 0x3F80#14 = 0x0080#14 → decode w = some (.movwf f)) ∧
    (w &&& 0x3F80#14 = 0x0180#14 → decode w = some (.clrf f)) ∧
    (w &&& 0x3FFF#14 = 0x0103#14 → decode w = some .clrw) ∧
    (w &&& 0x3F00#14 = 0x0200#14 → decode w = some (.subwf f d)) ∧
    (w &&& 0x3F00#14 = 0x0300#14 → decode w = some (.decf f d)) ∧
    (w &&& 0x3F00#14 = 0x0400#14 → decode w = some (.iorwf f d)) ∧
    (w &&& 0x3F00#14 = 0x0500#14 → decode w = some (.andwf f d)) ∧
    (w &&& 0x3F00#14 = 0x0600#14 → decode w = some (.xorwf f d)) ∧
    (w &&& 0x3F00#14 = 0x0700#14 → decode w = some (.addwf f d)) ∧
    (w &&& 0x3F00#14 = 0x0800#14 → decode w = some (.movf f d)) ∧
    (w &&& 0x3F00#14 = 0x0900#14 → decode w = some (.comf f d)) ∧
    (w &&& 0x3F00#14 = 0x0A00#14 → decode w = some (.incf f d)) ∧
    (w &&& 0x3F00#14 = 0x0B00#14 → decode w = some (.decfsz f d)) ∧
    (w &&& 0x3F00#14 = 0x0C00#14 → decode w = some (.rrf f d)) ∧
    (w &&& 0x3F00#14 = 0x0D00#14 → decode w = some (.rlf f d)) ∧
    (w &&& 0x3F00#14 = 0x0E00#14 → decode w = some (.swapf f d)) ∧
    (w &&& 0x3F00#14 = 0x0F00#14 → decode w = some (.incfsz f d)) ∧
    (w &&& 0x3C00#14 = 0x1000#14 → decode w = some (.bcf f b)) ∧
    (w &&& 0x3C00#14 = 0x1400#14 → decode w = some (.bsf f b)) ∧
    (w &&& 0x3C00#14 = 0x1800#14 → decode w = some (.btfsc f b)) ∧
    (w &&& 0x3C00#14 = 0x1C00#14 → decode w = some (.btfss f b)) ∧
    (w &&& 0x3800#14 = 0x2000#14 → decode w = some (.call a)) ∧
    (w &&& 0x3800#14 = 0x2800#14 → decode w = some (.goto a)) ∧
    (w &&& 0x3C00#14 = 0x3000#14 → decode w = some (.movlw k)) ∧
    (w &&& 0x3C00#14 = 0x3400#14 → decode w = some (.retlw k)) ∧
    (w &&& 0x3F00#14 = 0x3800#14 → decode w = some (.iorlw k)) ∧
    (w &&& 0x3F00#14 = 0x3900#14 → decode w = some (.andlw k)) ∧
    (w &&& 0x3F00#14 = 0x3A00#14 → decode w = some (.xorlw k)) ∧
    (w &&& 0x3F00#14 = 0x3B00#14 → decode w = none) ∧
    (w &&& 0x3E00#14 = 0x3C00#14 → decode w = some (.sublw k)) ∧
    (w &&& 0x3E00#14 = 0x3E00#14 → decode w = some (.addlw k)) ∧
    (w &&& 0x3F9F#14 = 0x0000#14 → decode w = some .nop) ∧
    (w = 0x0008#14 → decode w = some .ret) ∧
    (w = 0x0009#14 → decode w = some .retfie) ∧
    (w = 0x0062#14 → decode w = some .option) ∧
    (w = 0x0063#14 → decode w = some .sleep) ∧
    (w = 0x0064#14 → decode w = some .clrwdt)

/-- The words that no row matches are those R157, R158, R159 list, and there are 502 of them. -/
def Obligations.UnassignedWordsAreRejected : Prop :=
  (∀ w : InsnWord,
    decode w = none ↔
      (0x0001 ≤ w.toNat ∧ w.toNat ≤ 0x0007) ∨ (0x000A ≤ w.toNat ∧ w.toNat ≤ 0x001F) ∨
        (0x0021 ≤ w.toNat ∧ w.toNat ≤ 0x003F) ∨ (0x0041 ≤ w.toNat ∧ w.toNat ≤ 0x005F) ∨ w.toNat = 0x0061 ∨
          (0x0065 ≤ w.toNat ∧ w.toNat ≤ 0x007F) ∨ (0x3B00 ≤ w.toNat ∧ w.toNat ≤ 0x3BFF) ∨
            (0x0100 ≤ w.toNat ∧ w.toNat ≤ 0x0102) ∨ (0x0104 ≤ w.toNat ∧ w.toNat ≤ 0x017F)) ∧
  ((List.range 16384).filter fun n => (decode (BitVec.ofNat 14 n)).isNone).length = 502

/-- Words written out bit by bit from TABLE 15-2's patterns decode to what they stand for (30_encoding.md). -/
def Obligations.ExampleWordsDecode : Prop :=
  decode 0b00011110100000#14 = some (.addwf 0x20 .toF) ∧ decode 0b00000110100000#14 = some (.clrf 0x20) ∧
  decode 0b01001110100000#14 = some (.bcf 0x20 7) ∧ decode 0b10100100100011#14 = some (.goto 0x123) ∧
  decode 0b11111111111111#14 = some (.addlw 0xFF) ∧ decode 0b11000101011010#14 = some (.movlw 0x5A) ∧
  decode 0b00000000001001#14 = some .retfie ∧ decode 0b00000001100010#14 = some .option

/-! ## Data memory -/

/-- Direct and indirect addressing, and INDF through itself: it reads 00h, a write does nothing to memory, the flags
are still written (R108, R109). -/
def Obligations.OperandAddressingModes : Prop :=
  (∀ (f : BitVec 7) (s : State),
    (ea f s).toNat =
      if f = 0 then (if s.status.getLsbD 7 then 256 else 0) + s.fsr.toNat
      else (if s.status.getLsbD 6 then 256 else 0) + (if s.status.getLsbD 5 then 128 else 0) + f.toNat) ∧
  (∀ (f : BitVec 7) (s : State), operandReg f s = resolve (ea f s)) ∧
  ∀ s : State, s.fsr.toNat % 128 = 0 →
    operandValue 0 s = 0 ∧ (∀ v, fileWrite 0 v s = s) ∧
      exec (.incf 0 .toF) s =
        .next { s with
          status := statusOf s.status false (s.status.getLsbD 1) (s.status.getLsbD 0)
          pc := s.pc + 1
          cycles := 1
          rmw := .none }

/-- Mirrors are one cell (R104), and the 224 general purpose bytes stand where R32 places them. -/
def Obligations.DataMemoryMap : Prop :=
  (∀ off ∈ ([0x00, 0x02, 0x03, 0x04, 0x0A, 0x0B] : List Nat), ∀ bank < 4,
    resolve (BitVec.ofNat 9 (128 * bank + off)) = resolve (BitVec.ofNat 9 off)) ∧
  (∀ off ∈ ([0x01, 0x06] : List Nat), ∀ bank < 2,
    resolve (BitVec.ofNat 9 (256 + 128 * bank + off)) = resolve (BitVec.ofNat 9 (128 * bank + off))) ∧
  (∀ off < 16, ∀ bank < 4, resolve (BitVec.ofNat 9 (128 * bank + 0x70 + off)) = .gpr (0x70 + off)) ∧
  (∀ a < 512,
    ((0x020 ≤ a ∧ a ≤ 0x07F) ∨ (0x0A0 ≤ a ∧ a ≤ 0x0EF) ∨ (0x120 ≤ a ∧ a ≤ 0x14F) →
      resolve (BitVec.ofNat 9 a) = .gpr a) ∧
    ((0x150 ≤ a ∧ a ≤ 0x16F) ∨ (0x1A0 ≤ a ∧ a ≤ 0x1EF) → resolve (BitVec.ofNat 9 a) = .none)) ∧
  ((List.range 512).filter fun a => resolve (BitVec.ofNat 9 a) == .gpr a).length = 224

/-- Where the special function registers stand, every row of R51 with its mirrors, and that every other address whose
offset in its bank is below 20h is unimplemented. TRISB at 86h and 186h is the model's choice for the open parameter
TRISB_ADDR (log 11). -/
def Obligations.SpecialRegisterAddresses : Prop :=
  let rows : List (List Nat × Reg) :=
    [([0x000, 0x080, 0x100, 0x180], .indf), ([0x001, 0x101], .tmr0), ([0x002, 0x082, 0x102, 0x182], .pcl),
      ([0x003, 0x083, 0x103, 0x183], .status), ([0x004, 0x084, 0x104, 0x184], .fsr), ([0x005], .porta),
      ([0x006, 0x106], .portb), ([0x00A, 0x08A, 0x10A, 0x18A], .pclath), ([0x00B, 0x08B, 0x10B, 0x18B], .intcon),
      ([0x00C], .pir1), ([0x00E], .tmr1l), ([0x00F], .tmr1h), ([0x010], .t1con), ([0x011], .tmr2), ([0x012], .t2con),
      ([0x015], .ccpr1l), ([0x016], .ccpr1h), ([0x017], .ccp1con), ([0x018], .rcsta), ([0x019], .txreg),
      ([0x01A], .rcreg), ([0x01F], .cmcon), ([0x081, 0x181], .option), ([0x085], .trisa), ([0x086, 0x186], .trisb),
      ([0x08C], .pie1), ([0x08E], .pcon), ([0x092], .pr2), ([0x098], .txsta), ([0x099], .spbrg), ([0x09A], .eedata),
      ([0x09B], .eeadr), ([0x09C], .eecon1), ([0x09D], .eecon2), ([0x09F], .vrcon)]
  (∀ p ∈ rows, ∀ a ∈ p.1, resolve (BitVec.ofNat 9 a) = p.2) ∧
  ∀ a < 512, a % 128 < 0x20 → (∀ p ∈ rows, a ∉ p.1) → resolve (BitVec.ofNat 9 a) = .none

/-- A general purpose byte reads what was last written to it, and a write changes no other cell of data memory and
nothing else of the machine (R32, R113). -/
def Obligations.GeneralByteWriteThenRead : Prop :=
  ∀ (s : State) (a : Nat) (v : Byte), s.Inv →
    peek (.gpr a) (memWrite (.gpr a) v s) = v ∧
    (∀ r, r ≠ .gpr a → peek r (memWrite (.gpr a) v s) = peek r s) ∧
    memWrite (.gpr a) v s = { s with ram := (memWrite (.gpr a) v s).ram }

/-- What a register reads after a write: the value, but for read-only bits, which keep theirs, and unimplemented bits
(R113, R92). Clearing CREN clears OERR (R62); that it leaves FERR, and that a write which finds CREN at 0 and leaves it
so clears OERR too, is the model's choice (log 48), and so is what a write to RCREG does (log 34). A write to PCL is PC = PCLATH : v (R38). RD and WR of EECON1 are EepromControlWrite's. -/
def Obligations.RegisterWriteReadsBack : Prop :=
  ∀ (s : State) (v : Byte), s.Inv →
    (∀ r ∈ ([.tmr0, .fsr, .intcon, .tmr1l, .tmr1h, .tmr2, .ccpr1l, .txreg, .option, .trisb, .pr2, .spbrg, .eedata,
        .eeadr] : List Reg), peek r (memWrite r v s) = v) ∧
    peek .status (memWrite .status v s) = (v &&& 0xE7) ||| (peek .status s &&& 0x18) ∧
    peek .pclath (memWrite .pclath v s) = v &&& 0x1F ∧
    peek .pir1 (memWrite .pir1 v s) = (v &&& 0xC7) ||| (peek .pir1 s &&& 0x30) ∧
    peek .t1con (memWrite .t1con v s) = v &&& 0x3F ∧
    peek .t2con (memWrite .t2con v s) = v &&& 0x7F ∧
    peek .ccpr1h (memWrite .ccpr1h v s) = (if s.ccp.con &&& 0x0C = 0x0C then peek .ccpr1h s else v) ∧
    peek .ccp1con (memWrite .ccp1con v s) = v &&& 0x3F ∧
    peek .rcsta (memWrite .rcsta v s) =
      (v &&& 0xF8) ||| (peek .rcsta s &&& (if v.getLsbD 4 then 0x07 else 0x05)) ∧
    peek .cmcon (memWrite .cmcon v s) = (v &&& 0x3F) ||| (peek .cmcon s &&& 0xC0) ∧
    peek .trisa (memWrite .trisa v s) = v &&& 0xDF ∧
    peek .pie1 (memWrite .pie1 v s) = v &&& 0xF7 ∧
    peek .pcon (memWrite .pcon v s) = v &&& 0x0B ∧
    peek .txsta (memWrite .txsta v s) = (v &&& 0xF5) ||| (peek .txsta s &&& 0x02) ∧
    peek .eecon1 (memWrite .eecon1 v s) &&& 0x0C = v &&& 0x0C ∧
    peek .eecon2 (memWrite .eecon2 v s) = 0 ∧
    (memWrite .rcreg v s).usart = { s.usart with rcreg := v } ∧
    (s.usart.fifo = [] → peek .rcreg (memWrite .rcreg v s) = v) ∧
    (s.usart.fifo ≠ [] → peek .rcreg (memWrite .rcreg v s) = peek .rcreg s) ∧
    (memWrite .pcl v s).pc = s.pclath ++ v ∧
    peek .vrcon (memWrite .vrcon v s) = v &&& 0xEF ∧
    (memWrite .porta v s).io.latA = v ∧ (memWrite .portb v s).io.latB = v

/-- Unimplemented bits read as 0 and ignore writes (R92). -/
def Obligations.UnimplementedBitsReadZero : Prop :=
  ∀ s : State, s.Inv →
    ∀ p ∈ ([(.t1con, 0xC0), (.pir1, 0x08), (.pie1, 0x08), (.t2con, 0x80), (.ccp1con, 0xC0), (.txsta, 0x08),
        (.pclath, 0xE0), (.trisa, 0x20), (.pcon, 0xF4), (.eecon1, 0xF0), (.vrcon, 0x10)] : List (Reg × Byte)),
      peek p.1 s &&& p.2 = 0 ∧ ∀ v, peek p.1 (memWrite p.1 v s) &&& p.2 = 0

/-- PCL reads the low byte of the incremented PC; ADDWF PCL, 1 and MOVWF PCL are computed jumps of two cycles (R38, R39). -/
def Obligations.PclReadAndComputedJump : Prop :=
  ∀ (s : State) (f : BitVec 7),
    (peek .pcl s).toNat = (s.pc.toNat + 1) % 256 ∧
    (operandReg f s = .pcl →
      (∃ t, exec (.addwf f .toF) s = .next t ∧ t.cycles = 2 ∧ t.pclath = s.pclath ∧
        t.pc.toNat = s.pclath.toNat * 256 + (s.pc.toNat + 1 + s.w.toNat) % 256) ∧
      ∃ t, exec (.movwf f) s = .next t ∧ t.cycles = 2 ∧ t.pclath = s.pclath ∧
        t.pc.toNat = s.pclath.toNat * 256 + s.w.toNat)

/-- A read-modify-write of a port rewrites all eight latch bits with pin levels (R119, R421). -/
def Obligations.PortReadModifyWriteUsesPins : Prop :=
  ∀ (s : State) (f : BitVec 7) (b : BitVec 3), operandReg f s = .portb →
    (∃ t, exec (.movf f .toF) s = .next t ∧ t.io.latB = pinsB s) ∧
    (∃ t, exec (.bsf f b) s = .next t ∧ t.io.latB = pinsB s ||| (1#8 <<< b.toNat)) ∧
    (∃ t, exec (.bcf f b) s = .next t ∧ t.io.latB = pinsB s &&& ~~~(1#8 <<< b.toNat)) ∧
    ∀ i < 8, s.io.trisB.getLsbD i = true → s.io.extB.getLsbD i = false →
      ∃ t, exec (.movf f .toF) s = .next t ∧ t.io.latB.getLsbD i = false

/-- A pin of PORTB shows the outside when it is an input, and the latch when it is an output that the outside leaves alone
and that CCP1 does not drive; RB7 and RB6 are inputs while T1OSCEN = 1 (R65, R66, R355, D17). CCP1 drives RB3 in modes
1000, 1001 and 11xx (log 29). -/
def Obligations.PinLevelsFollowDirection : Prop :=
  ∀ (s : State) (i : Nat), i < 8 →
    (pinsB s).getLsbD i =
      if s.io.trisB.getLsbD i = true ∨ (s.t1.con.getLsbD 3 = true ∧ 6 ≤ i) ∨ s.io.forceB.getLsbD i = true then
        s.io.extB.getLsbD i
      else if i = 3 ∧ (12 ≤ (s.ccp.con.extractLsb' 0 4).toNat ∨ (s.ccp.con.extractLsb' 0 4).toNat = 8 ∨
          (s.ccp.con.extractLsb' 0 4).toNat = 9) then s.ccp.out
      else s.io.latB.getLsbD i

/-! ## Results of the instructions, with their frames

`afterFile d r res flags s1` (Safety.lean) is the whole next state: W or the register takes `res`, STATUS becomes `flags`
of itself, PC advances (or jumps, for PCL), and nothing else changes. -/

/-- ADDWF and SUBWF, every form, STATUS as the destination among them (R202, R217, R46, R47). -/
def Obligations.AddSubtractFileResult : Prop :=
  ∀ (f : BitVec 7) (d : Dest) (s : State),
    let r := operandReg f s
    let v := (readValue r s).toNat
    let w := s.w.toNat
    exec (.addwf f d) s =
      .next (afterFile d r (BitVec.ofNat 8 ((w + v) % 256))
        (fun st => statusOf st (decide ((w + v) % 256 = 0)) (decide (15 < w % 16 + v % 16)) (decide (255 < w + v)))
        (readEffect r s)) ∧
    exec (.subwf f d) s =
      .next (afterFile d r (BitVec.ofNat 8 ((256 + v - w) % 256))
        (fun st => statusOf st (decide ((256 + v - w) % 256 = 0)) (decide (w % 16 ≤ v % 16)) (decide (w ≤ v)))
        (readEffect r s))

/-- ANDWF, IORWF, XORWF, COMF, MOVF: Z from the result, C and DC unchanged (R203, R211, R219, R206, R212). STATUS as the
destination is StatusAsDestination's. -/
def Obligations.LogicFileResult : Prop :=
  ∀ (f : BitVec 7) (d : Dest) (s : State), plainDest d (operandReg f s) →
    let r := operandReg f s
    let v := readValue r s
    let after := fun res : Byte =>
      Host.Outcome.next (φ := Fault) (ρ := Refusal)
        (afterFile d r res (fun st => statusOf st (decide (res = 0)) (st.getLsbD 1) (st.getLsbD 0)) (readEffect r s))
    exec (.andwf f d) s = after (s.w &&& v) ∧ exec (.iorwf f d) s = after (s.w ||| v) ∧
    exec (.xorwf f d) s = after (s.w ^^^ v) ∧ exec (.comf f d) s = after (~~~v) ∧ exec (.movf f d) s = after v

/-- INCF and DECF wrap modulo 256 and affect Z alone (R209, R207). STATUS as the destination is StatusAsDestination's. -/
def Obligations.IncrementDecrementFileResult : Prop :=
  ∀ (f : BitVec 7) (d : Dest) (s : State), plainDest d (operandReg f s) →
    let r := operandReg f s
    let v := (readValue r s).toNat
    let after := fun res : Nat =>
      Host.Outcome.next (φ := Fault) (ρ := Refusal)
        (afterFile d r (BitVec.ofNat 8 res)
          (fun st => statusOf st (decide (res = 0)) (st.getLsbD 1) (st.getLsbD 0)) (readEffect r s))
    exec (.incf f d) s = after ((v + 1) % 256) ∧ exec (.decf f d) s = after ((v + 255) % 256)

/-- RLF and RRF rotate the nine bits C : v and affect C alone (R215, R216, R48). STATUS as the destination is
StatusAsDestination's. -/
def Obligations.RotateFileResult : Prop :=
  ∀ (f : BitVec 7) (d : Dest) (s : State), plainDest d (operandReg f s) →
    let r := operandReg f s
    let v := (readValue r s).toNat
    let c := if s.status.getLsbD 0 then 1 else 0
    exec (.rlf f d) s =
      .next (afterFile d r (BitVec.ofNat 8 ((2 * v + c) % 256))
        (fun st => statusOf st (st.getLsbD 2) (st.getLsbD 1) (decide (128 ≤ v))) (readEffect r s)) ∧
    exec (.rrf f d) s =
      .next (afterFile d r (BitVec.ofNat 8 ((v + 256 * c) / 2))
        (fun st => statusOf st (st.getLsbD 2) (st.getLsbD 1) (decide (v % 2 = 1))) (readEffect r s))

/-- DECFSZ and INCFSZ: the result is stored, no flag changes, and a result of 0 skips the next word in two cycles (R208,
R210, R245). PCL as the destination is SkipInstructionWritingPcl's. -/
def Obligations.SkipOnZeroResult : Prop :=
  ∀ (f : BitVec 7) (d : Dest) (s : State), (d = .toF → operandReg f s ≠ .pcl) →
    let r := operandReg f s
    let v := (readValue r s).toNat
    let after := fun res : Nat =>
      Host.Outcome.next (φ := Fault) (ρ := Refusal)
        (let t := afterFile d r (BitVec.ofNat 8 res) id (readEffect r s)
         if res = 0 then { t with pc := s.pc + 2, cycles := 2 } else t)
    exec (.decfsz f d) s = after ((v + 255) % 256) ∧ exec (.incfsz f d) s = after ((v + 1) % 256)

/-- DECFSZ and INCFSZ with PCL as the destination: the write decides PC, whatever the result (the model's choice, log 14;
R201 c, R208). -/
def Obligations.SkipInstructionWritingPcl : Prop :=
  ∀ (f : BitVec 7) (s : State), operandReg f s = .pcl →
    exec (.decfsz f .toF) s =
      .next { s with pc := s.pclath ++ BitVec.ofNat 8 (s.pc.toNat % 256), cycles := 2, rmw := .none } ∧
    exec (.incfsz f .toF) s =
      .next { s with pc := s.pclath ++ BitVec.ofNat 8 ((s.pc.toNat + 2) % 256), cycles := 2, rmw := .none }

/-- CLRF: a write of 00h without a read, and Z = 1; CLRF STATUS leaves 000u u1uu; CLRF PCL jumps (R204, R50). -/
def Obligations.ClearFileResult : Prop :=
  ∀ (f : BitVec 7) (s : State),
    let r := operandReg f s
    exec (.clrf f) s =
      .next
        (if r = .pcl then { s with pc := s.pclath ++ 0#8, cycles := 2, status := s.status ||| 0x04 }
         else if r = .status then
          { s with status := (s.status &&& 0x1B) ||| 0x04, pc := s.pc + 1, cycles := 1 }
         else { memWrite r 0 s with status := s.status ||| 0x04, pc := s.pc + 1, cycles := 1 })

/-- CLRW, MOVLW and NOP (R205, R267, R214). -/
def Obligations.ClrwMovlwNopResult : Prop :=
  ∀ (k : Byte) (s : State),
    exec .clrw s = .next { s with w := 0, status := s.status ||| 0x04, pc := s.pc + 1, cycles := 1 } ∧
    exec (.movlw k) s = .next { s with w := k, pc := s.pc + 1, cycles := 1 } ∧
    exec .nop s = .next { s with pc := s.pc + 1, cycles := 1 }

/-- MOVWF stores W without a read; no flag changes but in STATUS itself; MOVWF PCL jumps (R213). -/
def Obligations.MovwfResult : Prop :=
  ∀ (f : BitVec 7) (s : State),
    let r := operandReg f s
    exec (.movwf f) s =
      .next
        (if r = .pcl then { s with pc := s.pclath ++ s.w, cycles := 2 }
         else { memWrite r s.w s with pc := s.pc + 1, cycles := 1 })

/-- BCF and BSF write the whole byte back with bit b cleared or set; SWAPF exchanges the nibbles; none of them affects a
flag but by writing STATUS itself (R241, R242, R218). -/
def Obligations.BitWriteAndSwapResult : Prop :=
  ∀ (f : BitVec 7) (d : Dest) (b : BitVec 3) (s : State),
    let r := operandReg f s
    let v := readValue r s
    exec (.bcf f b) s = .next (afterFile .toF r (v &&& ~~~(1#8 <<< b.toNat)) id (readEffect r s)) ∧
    exec (.bsf f b) s = .next (afterFile .toF r (v ||| (1#8 <<< b.toNat)) id (readEffect r s)) ∧
    exec (.swapf f d) s =
      .next (afterFile d r (BitVec.ofNat 8 (v.toNat % 16 * 16 + v.toNat / 16)) id (readEffect r s))

/-- BTFSC and BTFSS skip on a 0, on a 1, and write nothing (R243, R244, R245). -/
def Obligations.BitTestResult : Prop :=
  ∀ (f : BitVec 7) (b : BitVec 3) (s : State),
    let r := operandReg f s
    let bit := (readValue r s).toNat / 2 ^ b.toNat % 2
    exec (.btfsc f b) s =
      .next { readEffect r s with
        pc := if bit = 0 then s.pc + 2 else s.pc + 1
        cycles := if bit = 0 then 2 else 1 } ∧
    exec (.btfss f b) s =
      .next { readEffect r s with
        pc := if bit = 1 then s.pc + 2 else s.pc + 1
        cycles := if bit = 1 then 2 else 1 }

/-- ADDLW and SUBLW (R261, R272). -/
def Obligations.LiteralAddSubtractResult : Prop :=
  ∀ (k : Byte) (s : State),
    let w := s.w.toNat
    exec (.addlw k) s =
      .next { s with
        w := BitVec.ofNat 8 ((w + k.toNat) % 256)
        status := statusOf s.status (decide ((w + k.toNat) % 256 = 0)) (decide (15 < w % 16 + k.toNat % 16))
          (decide (255 < w + k.toNat))
        pc := s.pc + 1
        cycles := 1 } ∧
    exec (.sublw k) s =
      .next { s with
        w := BitVec.ofNat 8 ((256 + k.toNat - w) % 256)
        status := statusOf s.status (decide (k.toNat = w)) (decide (w % 16 ≤ k.toNat % 16)) (decide (w ≤ k.toNat))
        pc := s.pc + 1
        cycles := 1 }

/-- ANDLW, IORLW, XORLW: Z from the result, C and DC unchanged (R262, R266, R273). -/
def Obligations.LiteralLogicResult : Prop :=
  ∀ (k : Byte) (s : State),
    let after := fun res : Byte =>
      Host.Outcome.next (φ := Fault) (ρ := Refusal)
        { s with
          w := res
          status := statusOf s.status (decide (res = 0)) (s.status.getLsbD 1) (s.status.getLsbD 0)
          pc := s.pc + 1
          cycles := 1 }
    exec (.andlw k) s = after (s.w &&& k) ∧ exec (.iorlw k) s = after (s.w ||| k) ∧ exec (.xorlw k) s = after (s.w ^^^ k)

/-- CALL pushes the 13 bits of PC + 1; CALL and GOTO jump to PCLATH<4:3> : k in two cycles (R263, R265). -/
def Obligations.CallGotoResult : Prop :=
  ∀ (k : BitVec 11) (s : State),
    let target := BitVec.ofNat 13 (s.pclath.toNat / 8 * 2048 + k.toNat)
    (∃ t, exec (.call k) s = .next t ∧ tos t = s.pc + 1 ∧
      t = { s with
            stk := s.stk.set s.sp.toNat (s.pc + 1) s.sp.isLt
            sp := s.sp + 1
            pc := target
            cycles := 2 }) ∧
    exec (.goto k) s = .next { s with pc := target, cycles := 2 }

/-- RETURN, RETLW and RETFIE pop PC; RETLW loads W; RETFIE sets GIE and restores nothing else (R270, R269, R268). -/
def Obligations.ReturnResult : Prop :=
  ∀ (k : Byte) (s : State),
    exec .ret s = .next { s with pc := tos s, sp := s.sp - 1, cycles := 2 } ∧
    exec (.retlw k) s = .next { s with w := k, pc := tos s, sp := s.sp - 1, cycles := 2 } ∧
    exec .retfie s =
      .next { s with pc := tos s, sp := s.sp - 1, intcon := s.intcon ||| 0x80, cycles := 2 }

/-- CLRWDT clears the watchdog, and the prescaler if it is the watchdog's, and sets TO and PD (R264). SLEEP does the same
with PD = 0 and sleeps, unless a wake condition already holds: then it is a NOP (R271). -/
def Obligations.ClrwdtSleepResult : Prop :=
  ∀ s : State,
    let pre : Byte := if s.option.getLsbD 3 then 0 else s.t0.prescaler
    let counted := !s.option.getLsbD 3 && s.t0.counted
    exec .clrwdt s =
      .next { s with
        wdt := 0
        t0 := { s.t0 with prescaler := pre, counted := counted }
        status := s.status ||| 0x18
        pc := s.pc + 1
        cycles := 1 } ∧
    exec .sleep s =
      .next
        (if wake s then { s with pc := s.pc + 1, cycles := 1 }
         else
          { s with
            wdt := 0
            t0 := { s.t0 with prescaler := pre, counted := counted }
            status := (s.status &&& 0xF7) ||| 0x10
            sleeping := true
            pc := s.pc + 1
            cycles := 1 })

/-- OPTION loads the OPTION register from W whatever the bank bits are, and touches neither STATUS nor W (R276). It does what
MOVWF does to the OPTION register, so a change of PSA while the prescaler counts may give Timer0 its spurious increment, with
T0IF at its overflow (R345, U15). That the prescaler counts when it has been clocked since it was last cleared is the
model's choice (log 21). -/
def Obligations.OptionResult : Prop :=
  ∀ s : State,
    (∃ t, exec .option s = .next t ∧ t.option = s.w ∧ t.w = s.w ∧ t.status = s.status ∧ t.pc = s.pc + 1 ∧
      t.cycles = 1 ∧ t.ram = s.ram ∧
      ((t.t0.tmr0 = s.t0.tmr0 ∧ t.intcon = s.intcon) ∨
        (t.t0.tmr0 = s.t0.tmr0 + 1 ∧ s.w.getLsbD 3 ≠ s.option.getLsbD 3 ∧
          (t.intcon = s.intcon ∨ (s.t0.tmr0 = 0xFF ∧ t.intcon = s.intcon ||| 0x04)) ∧
          (s.t0.tmr0 = 0xFF → s.rmw ≠ .intcon → t.intcon = s.intcon ||| 0x04))) ∧
      t = { s with
            option := s.w
            t0 := { s.t0 with tmr0 := t.t0.tmr0 }
            intcon := t.intcon
            freeIx := t.freeIx
            pc := s.pc + 1
            cycles := 1 }) ∧
    (s.w.getLsbD 3 = s.option.getLsbD 3 ∨ s.t0.counted = false →
      exec .option s = .next { s with option := s.w, pc := s.pc + 1, cycles := 1 })

/-- STATUS as the destination of an instruction that affects flags: bits 7:5 of the result, TO and PD as before, each
listed flag as computed (R50); the others are open and nothing is said of them (U6). -/
def Obligations.StatusAsDestination : Prop :=
  ∀ (f : BitVec 7) (s : State), operandReg f s = .status →
    let v := s.status
    (∃ t, exec (.andwf f .toF) s = .next t ∧ StatusWritten (s.w &&& v) none none (some (decide (s.w &&& v = 0))) s t) ∧
    (∃ t, exec (.iorwf f .toF) s = .next t ∧ StatusWritten (s.w ||| v) none none (some (decide (s.w ||| v = 0))) s t) ∧
    (∃ t, exec (.xorwf f .toF) s = .next t ∧ StatusWritten (s.w ^^^ v) none none (some (decide (s.w ^^^ v = 0))) s t) ∧
    (∃ t, exec (.comf f .toF) s = .next t ∧ StatusWritten (~~~v) none none (some (decide (v = 0xFF))) s t) ∧
    (∃ t, exec (.movf f .toF) s = .next t ∧ StatusWritten v none none (some (decide (v = 0))) s t) ∧
    (∃ t, exec (.incf f .toF) s = .next t ∧ StatusWritten (v + 1) none none (some (decide (v = 0xFF))) s t) ∧
    (∃ t, exec (.decf f .toF) s = .next t ∧ StatusWritten (v - 1) none none (some (decide (v = 1))) s t) ∧
    (∃ t, exec (.rlf f .toF) s = .next t ∧
      StatusWritten (BitVec.ofNat 8 ((2 * v.toNat + v.toNat % 2) % 256)) (some (v.getLsbD 7)) none none s t) ∧
    (∃ t, exec (.rrf f .toF) s = .next t ∧
      StatusWritten (BitVec.ofNat 8 ((v.toNat + 256 * (v.toNat % 2)) / 2)) (some (v.getLsbD 0)) none none s t) ∧
    (∃ t, exec (.addwf f .toF) s = .next t ∧
      StatusWritten (s.w + v) (some (decide (255 < s.w.toNat + v.toNat)))
        (some (decide (15 < s.w.toNat % 16 + v.toNat % 16))) (some (decide (s.w + v = 0))) s t) ∧
    (∃ t, exec (.subwf f .toF) s = .next t ∧
      StatusWritten (v - s.w) (some (decide (s.w.toNat ≤ v.toNat)))
        (some (decide (s.w.toNat % 16 ≤ v.toNat % 16))) (some (decide (v = s.w))) s t)

/-! ## Rules over all instructions -/

/-- No instruction but CLRWDT and SLEEP changes TO or PD, whatever its destination (R49). -/
def Obligations.ToPdWrittenOnlyByClrwdtSleep : Prop :=
  ∀ (i : Instr) (s t : State), exec i s = .next t → i ≠ .clrwdt → i ≠ .sleep →
    t.status.getLsbD 4 = s.status.getLsbD 4 ∧ t.status.getLsbD 3 = s.status.getLsbD 3

/-- No instruction but CALL, RETURN, RETLW and RETFIE reads or writes the return stack (R40). -/
def Obligations.StackTouchedOnlyByCallAndReturns : Prop :=
  ∀ (i : Instr) (s t : State), exec i s = .next t →
    ((∀ k, i ≠ .call k) → t.stk = s.stk) ∧
    ((∀ k, i ≠ .call k) → i ≠ .ret → i ≠ .retfie → (∀ k, i ≠ .retlw k) → t.sp = s.sp)

/-- The return stack: a push stores its value at the top, eight pushes come back in reverse order, the ninth pop returns the
last of them again, a push keeps the seven other entries (so the ninth push overwrites the oldest), and nothing else of
the machine changes (R41, R42). -/
def Obligations.StackPushPop : Prop :=
  ∀ (s : State) (v : CodeAddr),
    (∀ vs : List CodeAddr, vs.length = 8 →
      let u := vs.foldl (fun x a => push a x) s
      u.sp = s.sp ∧ (∀ i < 8, vs.reverse[i]? = some (tos (pop^[i] u))) ∧ tos (pop^[8] u) = tos u) ∧
    tos (push v s) = v ∧ (∀ (n : Nat) (h : n < 8), n ≠ s.sp.toNat → (push v s).stk[n] = s.stk[n]) ∧
    push v s = { s with stk := (push v s).stk, sp := s.sp + 1 } ∧ pop s = { s with sp := s.sp - 1 }

/-- Every general purpose byte but the one the instruction stores to reads as before (R200, R240, R260). -/
def Obligations.GeneralBytesFrame : Prop :=
  ∀ (i : Instr) (s t : State), exec i s = .next t →
    ∀ a, storeReg i s ≠ some (.gpr a) → peek (.gpr a) t = peek (.gpr a) s

/-- W changes only by an instruction whose destination it is, and the registers of data memory not at all by an
instruction that stores to none of them: but RETFIE sets GIE, CLRWDT and SLEEP clear the prescaler, and reading RCREG,
PORTB and CMCON moves the receive buffer and the two change latches. A store to one register changes that register and
what R113 gives the store, and nothing else (`StoreFrame`): TMR0 starts the inhibit and clears Timer0's prescaler, TMR1L
and TMR1H clear Timer1's, TMR2 and T2CON Timer2's prescaler and postscaler, TXREG clears TXIF, CCP1CON = 00h forces the
compare output low (U16), RCSTA with CREN = 1 and OERR = 0 ends an overrun's stop (R366; log 55), EECON1 may start a read
or a write (R371, R374). A read is `ReadFrame` (R112, R310, R315, R366), and RCREG gives its oldest byte. Model's choices: log 21 (OPTION), log 24 (T1CON), log 27 (CCP1CON's edge count), log 33
(PORTB), log 34 (a write to RCREG), log 45 (CMCON: R310 against R112), log 49 (FERR, RX9D with no byte left). -/
def Obligations.RegistersFrame : Prop :=
  (∀ (i : Instr) (s t : State), exec i s = .next t →
    (writesW i = false → t.w = s.w) ∧
    (storeReg i s = none →
      t.ram = s.ram ∧ t.fsr = s.fsr ∧ t.pclath = s.pclath ∧ t.pir1 = s.pir1 ∧ t.pie1 = s.pie1 ∧
      t.option = s.option ∧ t.pcon = s.pcon ∧ t.t1 = s.t1 ∧ t.t2 = s.t2 ∧ t.ccp = s.ccp ∧ t.ee = s.ee ∧
      t.io = { s.io with change := t.io.change } ∧ t.cmp = { s.cmp with last := t.cmp.last } ∧
      t.usart = { s.usart with fifo := t.usart.fifo, drained := t.usart.drained, rcsta := t.usart.rcsta } ∧
      (i ≠ .retfie → t.intcon = s.intcon) ∧ (i ≠ .clrwdt → i ≠ .sleep → t.t0 = s.t0))) ∧
  (∀ (r : Reg) (v : Byte) (s : State), StoreFrame r v s (memWrite r v s)) ∧
  (∀ (r : Reg) (s : State), ReadFrame r s (readEffect r s)) ∧
  ∀ (s : State) (b : RxByte) (rest : List RxByte), s.usart.fifo = b :: rest → readValue .rcreg s = b.data

/-- No instruction stops: each answers a next state from every state (R300, R301). -/
def Obligations.EveryInstructionCompletes : Prop := ∀ (i : Instr) (s : State), ∃ t, exec i s = .next t

/-- No step of the machine changes program memory (R100, R128). -/
def Obligations.ProgramMemoryNeverChanges : Prop :=
  ∀ s t : State, step s = .next t → t.prog = s.prog

/-! ## Interrupts, sleep -/

/-- The interrupt-pending condition: a flag and its own enable, PEIE before the seven of PIR1, GIE over all (R312). T0IF,
INTF, RBIF are INTCON<2:0> and T0IE, INTE, RBIE INTCON<5:3>; PIE1 and PIR1 agree in position (R55). -/
def Obligations.InterruptConditionSources : Prop :=
  ∀ s : State, s.Inv →
    (wake s = true ↔
      (∃ j < 3, s.intcon.getLsbD j = true ∧ s.intcon.getLsbD (j + 3) = true) ∨
        (s.intcon.getLsbD 6 = true ∧ ∃ j < 8, (peek .pir1 s).getLsbD j = true ∧ (peek .pie1 s).getLsbD j = true)) ∧
    (irq s = true ↔ s.intcon.getLsbD 7 = true ∧ wake s = true)

/-- Interrupt entry: at a boundary, with an interrupt requested, GIE is cleared, the address of the next instruction pushed
and PC made 0004h; two cycles pass; nothing else is saved or changed before they do, but an EEPROM unlock sequence is
lost (R320, R373), and not before the instruction prefetched before a SLEEP has run (R384). That an empty schedule takes
it at once, where R321 leaves zero or one instruction open, is the model's choice (logs 1 and 15). -/
def Obligations.InterruptEntryAtBoundary : Prop :=
  ∀ s : State, s.env = [] → s.sleeping = false → s.prefetched = false → irq s = true →
    ∃ u, step s = .next (sample (endWrite (tickN 2 u))) ∧ tos u = s.pc ∧
      u = { s with
            intcon := s.intcon &&& 0x7F
            stk := s.stk.set s.sp.toNat s.pc s.sp.isLt
            sp := s.sp + 1
            pc := 0x0004
            cycles := 2
            ee := { s.ee with unlock := .idle }
            irqHeld := 0
            rmw := .none
            wdt := s.wdt + 1
            cmp := { s.cmp with moved := false } }

/-- A handler that is one RETFIE: the interrupted address is back in PC, GIE is 1 again, and W, STATUS, PCLATH, FSR and the
general purpose bytes are as before (R320, R324). -/
def Obligations.EntryThenRetfieReturns : Prop :=
  ∀ s : State, s.intcon.getLsbD 7 = true →
    ∃ t, exec .retfie (interruptEntry s) = .next t ∧ t.pc = s.pc ∧ t.sp = s.sp ∧ t.intcon = s.intcon ∧ t.w = s.w ∧
      t.status = s.status ∧ t.pclath = s.pclath ∧ t.fsr = s.fsr ∧ t.ram = s.ram

/-- A pending interrupt lets at most one instruction run first (R321, D20). The schedule's `hold` runs the instruction at PC
when no instruction has run past a request yet. If one of the requests it runs past still stands after its effect and
after its cycles, the next move of the CPU takes the interrupt whatever the schedule says; if none outlives its effect,
`hold` may let the next instruction run too, since what is requested then is new. That the schedule decides is the
model's choice (logs 1, 15). -/
def Obligations.PendingInterruptWaitsForOneInstruction : Prop :=
  ∀ (s : State) (rest : List EnvAct) (i : Instr) (w : InsnWord),
    s.env = .hold :: rest → s.sleeping = false → s.irqHeld &&& requests s = 0 → s.pc.toNat < 0x400 →
    Memory.find s.prog s.pc.toNat = some w → decode w = some i →
    step s = runInstr i { s with env := rest } ∧
    ∀ u, exec i (beginInstr i { s with env := rest }) = .next u →
      let t := finishStep (lapse u)
      step s = .next t ∧
      (requests s &&& requests u &&& requests t ≠ 0 → t.sleeping = false →
        ∀ hold, cpuStep hold t = .next (takeInterrupt t)) ∧
      (requests s &&& requests u = 0 → interruptDue true t = false)

/-- A sleeping core: nothing executes until a wake condition holds; then it wakes, and the instruction after SLEEP runs
before an interrupt is taken, GIE or not (R382, R383, R384). That an idle moment is a step, which counts a boundary for the
watchdog, and the wake-up a step of its own, is the model's choice (log 17; the empty schedule: log 1). -/
def Obligations.SleepingCoreAndWakeUp : Prop :=
  ∀ s : State, s.env = [] → s.sleeping = true →
    (wake s = false → step s = .next { s with wdt := s.wdt + 1 }) ∧
    (wake s = true →
      step s = .next { s with sleeping := false, prefetched := true } ∧
      ∀ i w, s.pc.toNat < 0x400 → Memory.find s.prog s.pc.toNat = some w → decode w = some i →
        step { s with sleeping := false, prefetched := true } =
          runInstr i { s with sleeping := false, prefetched := true })

/-! ## Devices -/

/-- What time does to the machine, an instruction's cycles and the sampling of the pins: the on-chip devices change their
own registers and flags and nothing else (R125, R430). The sample sets INTF at the edge of RB0 that INTEDG selects, RBIF
while an input among RB7:RB4 differs from its value at the last read of PORTB, CMIF while a comparator output differs
from its value at the last read of CMCON (R310, R314, R315), outside the race of a read-modify-write (U12). That pins
are compared from one sample to the next, at boundaries and events, is the model's choice (log 52). -/
def Obligations.DevicesLeaveTheCpuAlone : Prop :=
  ∀ s : State,
    let t := finishStep s
    let u := sample s
    t.w = s.w ∧ t.pc = s.pc ∧ t.stk = s.stk ∧ t.sp = s.sp ∧ t.status = s.status ∧ t.fsr = s.fsr ∧
    t.pclath = s.pclath ∧ t.ram = s.ram ∧ t.prog = s.prog ∧ t.sleeping = s.sleeping ∧ t.pie1 = s.pie1 ∧
    t.option = s.option ∧ t.pcon = s.pcon ∧ t.wdt = s.wdt ∧ t.env = s.env ∧ t.ee.cells = s.ee.cells ∧
    (∀ j < 8, 3 ≤ j → t.intcon.getLsbD j = s.intcon.getLsbD j) ∧
    (∀ j < 3, s.intcon.getLsbD j = true → t.intcon.getLsbD j = true) ∧
    (s.rmw ≠ .intcon →
      (u.intcon.getLsbD 1 = true ↔
        s.intcon.getLsbD 1 = true ∨
          ((pinsB s).getLsbD 0 = s.option.getLsbD 6 ∧ s.io.seenB.getLsbD 0 = !s.option.getLsbD 6)) ∧
      (u.intcon.getLsbD 0 = true ↔
        s.intcon.getLsbD 0 = true ∨
          ∃ j < 8, 4 ≤ j ∧ (s.io.trisB.getLsbD j = true ∨ (s.t1.con.getLsbD 3 = true ∧ 6 ≤ j)) ∧
            (pinsB s).getLsbD j ≠ s.io.change.getLsbD j)) ∧
    (s.rmw ≠ .pir1 →
      (u.pir1.getLsbD 6 = true ↔ s.pir1.getLsbD 6 = true ∨ s.cmp.con.extractLsb' 6 2 ≠ s.cmp.last)) ∧
    u.io.seenB = pinsB s

/-- Timer0 in timer mode, one instruction cycle without write inhibit: 1:1 with PSA = 1, else one increment each 2^(PS+1)
cycles; FFh to 00h sets T0IF (R341, R344). While the core sleeps Timer0, Timer1 and Timer2 stand still (R347, R382); that
this includes the cycle of the SLEEP instruction itself is the model's choice (log 50). -/
def Obligations.Timer0InstructionCycle : Prop :=
  (∀ s : State, s.sleeping = false → s.option.getLsbD 5 = false → s.t0.wrote = false → s.t0.inhibit = 0 →
    let p := s.t0.prescaler + 1
    let counts := s.option.getLsbD 3 = true ∨ p.toNat % 2 ^ ((s.option.extractLsb' 0 3).toNat + 1) = 0
    (counts → (tick s).t0.tmr0 = s.t0.tmr0 + 1) ∧ (¬counts → (tick s).t0.tmr0 = s.t0.tmr0) ∧
    (tick s).t0.prescaler = (if s.option.getLsbD 3 then s.t0.prescaler else p) ∧
    (s.rmw ≠ .intcon →
      ((tick s).intcon.getLsbD 2 = true ↔ s.intcon.getLsbD 2 = true ∨ (counts ∧ s.t0.tmr0 = 0xFF)))) ∧
  ∀ s : State, s.sleeping = true →
    (tick s).t0 = s.t0 ∧ (tick s).t1 = s.t1 ∧ (tick s).t2 = s.t2 ∧ (tick s).intcon = s.intcon ∧ (tick s).pir1 = s.pir1

/-- A write to TMR0, by whatever instruction, inhibits the increment for the two instruction cycles after the writing
instruction, and clears the prescaler if it is Timer0's (R346, R345). That no cycle of the writing instruction itself
counts either, one or two, is the model's choice (D16, log 20). -/
def Obligations.Timer0WriteInhibit : Prop :=
  ∀ (i : Instr) (s : State), storeReg i s = some .tmr0 → s.sleeping = false → s.option.getLsbD 5 = false →
    ∃ t, exec i s = .next t ∧ (∀ f, i = .movwf f → t.t0.tmr0 = s.w) ∧
      let u := endWrite (tickN t.cycles t)
      u.t0.tmr0 = t.t0.tmr0 ∧ (tickN 1 u).t0.tmr0 = t.t0.tmr0 ∧ (tickN 2 u).t0.tmr0 = t.t0.tmr0 ∧
      (s.option.getLsbD 3 = true → (tickN 3 u).t0.tmr0 = t.t0.tmr0 + 1) ∧
      (s.option.getLsbD 3 = false → t.t0.prescaler = 0 ∧ (tickN 2 u).t0.prescaler = 0 ∧
        (tickN 3 u).t0.prescaler = 1)

/-- Timer1 in timer mode, one instruction cycle, outside the special event mode: one increment each 2^T1CKPS cycles; FFFFh to
0000h sets TMR1IF (R351, R353). In compare mode the increment that reaches CCPR1 sets CCP1IF, and the output is set in
mode 1000, cleared in mode 1001 and left alone in mode 1010 (R360, R361); that the match is made by the increment is the
model's choice (log 25). -/
def Obligations.Timer1InstructionCycle : Prop :=
  ∀ s : State, s.sleeping = false → s.t1.con.getLsbD 0 = true → s.t1.con.getLsbD 1 = false →
    (s.ccp.con.extractLsb' 0 4).toNat ≠ 11 →
    let mode := (s.ccp.con.extractLsb' 0 4).toNat
    let n := 2 ^ (s.t1.con.extractLsb' 4 2).toNat
    let hit := 8 ≤ mode ∧ mode ≤ 10 ∧ tmr1 s + 1 = ccpr1 s
    (s.t1.pre + 1 = n →
      (tick s).t1.pre = 0 ∧ tmr1 (tick s) = tmr1 s + 1 ∧
      (s.rmw ≠ .pir1 →
        ((tick s).pir1.getLsbD 0 = true ↔ s.pir1.getLsbD 0 = true ∨ tmr1 s = 0xFFFF) ∧
        ((tick s).pir1.getLsbD 2 = true ↔ s.pir1.getLsbD 2 = true ∨ hit)) ∧
      (hit → mode = 8 → (tick s).ccp.out = true) ∧ (hit → mode = 9 → (tick s).ccp.out = false) ∧
      (mode < 12 → ¬hit ∨ mode = 10 → (tick s).ccp.out = s.ccp.out)) ∧
    (s.t1.pre + 1 < n →
      (tick s).t1.pre = s.t1.pre + 1 ∧ tmr1 (tick s) = tmr1 s ∧ (tick s).pir1.getLsbD 0 = s.pir1.getLsbD 0 ∧
      (tick s).pir1.getLsbD 2 = s.pir1.getLsbD 2)

/-- The special event trigger makes CCPR1 Timer1's period register, at each of Timer1's prescales: from 0000h Timer1 counts
0 .. CCPR1, one increment each 2^T1CKPS instruction cycles (R351), is 0000h again after CCPR1 + 1 increments, CCP1IF is set
then, TMR1IF is not, and the pin is left alone (R354, R362). That CCP1IF is still unchanged at the count CCPR1 and set by
the clock after it is the model's choice (log 25). -/
def Obligations.SpecialEventPeriod : Prop :=
  ∀ s : State, s.sleeping = false → s.ccp.con.extractLsb' 0 4 = 0b1011 → s.t1.con.getLsbD 0 = true →
    s.t1.con.getLsbD 1 = false → s.t1.pre = 0 → tmr1 s = 0 → s.rmw ≠ .pir1 →
    let p := 2 ^ (s.t1.con.extractLsb' 4 2).toNat
    let n := ((ccpr1 s).toNat + 1) * p
    (∀ m < n, (tmr1 (tickN m s)).toNat = m / p ∧ (tickN m s).t1.pre = m % p ∧
      (tickN m s).pir1.getLsbD 2 = s.pir1.getLsbD 2) ∧
    tmr1 (tickN n s) = 0 ∧ (tickN n s).t1.pre = 0 ∧ (tickN n s).pir1.getLsbD 2 = true ∧
    (∀ m ≤ n, (tickN m s).pir1.getLsbD 0 = s.pir1.getLsbD 0 ∧ (tickN m s).ccp = s.ccp)

/-- Timer2, one instruction cycle: the prescaler, the match with PR2, the postscaler and TMR2IF, which no other cycle
changes (R310, R357); in PWM mode the match latches the duty cycle and sets the pin unless the duty value is 0, and the pin
is cleared when TMR2 and the two bits below it are the duty value (R363), in the cycle as it begins, with what the
instruction wrote, or as it ends; with TMR2ON = 0 Timer2 stands and the comparison goes on. That at prescale 1 the four Q
phases of a cycle are one moment of the model is log 28. -/
def Obligations.Timer2InstructionCycle : Prop :=
  ∀ s : State, s.sleeping = false → s.rmw ≠ .pir1 →
    let t := tick s
    let prescale := match (s.t2.con.extractLsb' 0 2).toNat with
      | 0 => 1
      | 1 => 4
      | _ => 16
    let postscale := (s.t2.con.extractLsb' 3 4).toNat + 1
    let on := s.t2.con.getLsbD 2 = true
    let isMatch := on ∧ prescale ≤ s.t2.pre + 1 ∧ s.t2.tmr = s.t2.pr
    (¬on → t.t2 = s.t2) ∧
    (on → s.t2.pre + 1 < prescale → t.t2 = { s.t2 with pre := s.t2.pre + 1 }) ∧
    (on → prescale ≤ s.t2.pre + 1 → s.t2.tmr ≠ s.t2.pr → t.t2 = { s.t2 with pre := 0, tmr := s.t2.tmr + 1 }) ∧
    (isMatch → s.t2.post + 1 < postscale → t.t2 = { s.t2 with pre := 0, tmr := 0, post := s.t2.post + 1 }) ∧
    (isMatch → postscale ≤ s.t2.post + 1 → t.t2 = { s.t2 with pre := 0, tmr := 0, post := 0 }) ∧
    (t.pir1.getLsbD 1 = true ↔ s.pir1.getLsbD 1 = true ∨ (isMatch ∧ postscale ≤ s.t2.post + 1)) ∧
    (12 ≤ (s.ccp.con.extractLsb' 0 4).toNat →
      let ends := t.t2.tmr = t.ccp.hi ∧ t.t2.pre * 4 / prescale = t.ccp.latch.toNat
      let begins := s.t2.tmr = s.ccp.hi ∧ (prescale = 1 ∨ s.t2.pre * 4 / prescale = s.ccp.latch.toNat)
      (isMatch → t.ccp.hi = s.ccp.lo ∧ t.ccp.latch = s.ccp.con.extractLsb' 4 2 ∧
        (s.ccp.lo ≠ 0 ∨ s.ccp.con.extractLsb' 4 2 ≠ 0 → t.ccp.out = true)) ∧
      (¬isMatch → t.ccp.hi = s.ccp.hi ∧ t.ccp.latch = s.ccp.latch) ∧
      (ends → t.ccp.out = false) ∧ (¬ends → ¬isMatch → begins → t.ccp.out = false) ∧
      (¬ends → ¬isMatch → ¬begins → t.ccp.out = s.ccp.out))

/-- The EECON2 sequence: each of the five instructions carries it on only right after the one before it, every other
instruction and an interrupt entry lose it (R373, D31), and so the five in a row, with WREN = 1, start the write. That
`f` may name EECON2 or EECON1 through INDF too is the model's choice (log 36). -/
def Obligations.EepromUnlockTiming : Prop :=
  (∀ (i : Instr) (s : State),
    let u := (beginInstr i s).ee.unlock
    (u = .loaded55 ↔ i = .movlw 0x55) ∧
    (u = .wrote55 ↔ s.ee.unlock = .loaded55 ∧ s.w = 0x55 ∧ ∃ f, i = .movwf f ∧ operandReg f s = .eecon2) ∧
    (u = .loadedAA ↔ s.ee.unlock = .wrote55 ∧ i = .movlw 0xAA) ∧
    (u = .wroteAA ↔ s.ee.unlock = .loadedAA ∧ s.w = 0xAA ∧ ∃ f, i = .movwf f ∧ operandReg f s = .eecon2) ∧
    (u = .complete ↔ s.ee.unlock = .wroteAA ∧ ∃ f, i = .bsf f 1 ∧ operandReg f s = .eecon1)) ∧
  (∀ s : State, (interruptEntry s).ee.unlock = .idle) ∧
  ∀ s : State, s.status.getLsbD 6 = false → s.status.getLsbD 5 = true → s.ee.con1.getLsbD 2 = true →
    ∃ a b c d e, runInstr (.movlw 0x55) s = .next a ∧ runInstr (.movwf 0x1D) a = .next b ∧
      runInstr (.movlw 0xAA) b = .next c ∧ runInstr (.movwf 0x1D) c = .next d ∧ runInstr (.bsf 0x1C 1) d = .next e ∧
      e.ee.write = some ⟨s.ee.adr.extractLsb' 0 7, s.ee.data, 1⟩ ∧ e.ee.cells = s.ee.cells

/-- Setting WR starts a write if and only if WREN was 1 and the sequence has just completed; it samples EEADR<6:0> and
EEDATA, and software cannot clear WR (R374). Setting RD alone, with no write in progress: EEDATA holds the byte at
EEADR<6:0> at once, RD reads back 0 (R371). What counts as just completed is log 36; that a sequence completed while a
write is in progress replaces that write is the model's choice (log 37). -/
def Obligations.EepromControlWrite : Prop :=
  ∀ (s : State) (v : Byte),
    let t := memWrite .eecon1 v s
    (t.ee.write =
      if v.getLsbD 1 = true ∧ s.ee.con1.getLsbD 2 = true ∧ s.ee.unlock = .complete then
        some ⟨s.ee.adr.extractLsb' 0 7, s.ee.data, 0⟩
      else s.ee.write) ∧
    (v.getLsbD 1 = true ∧ s.ee.con1.getLsbD 2 = true ∧ s.ee.unlock = .complete → t.ee.unlock = .idle) ∧
    t.ee.cells = s.ee.cells ∧ (peek .eecon1 t).getLsbD 1 = t.ee.write.isSome ∧
    (peek .eecon1 t).getLsbD 0 = false ∧
    (s.ee.write = none → v.getLsbD 0 = true → v.getLsbD 1 = false →
      peek .eedata t = Memory.read eeBlank s.ee.cells (s.ee.adr.toNat % 128))

/-- Completion of a write cycle, once a whole cycle has passed: the byte is in the array, WR reads 0, EEIF is 1, and no
other byte changes (R375, D19; log 38). -/
def Obligations.EepromWriteCompletes : Prop :=
  ∀ (s : State) (w : EeWrite), s.Inv → s.ee.write = some w → 2 ≤ w.cycles →
    let t := eventStep false .eeDone s
    Memory.read eeBlank t.ee.cells w.addr.toNat = w.data ∧
    (∀ a, a ≠ w.addr.toNat → Memory.read eeBlank t.ee.cells a = Memory.read eeBlank s.ee.cells a) ∧
    (peek .eecon1 t).getLsbD 1 = false ∧ t.pir1.getLsbD 7 = true

/-- The receive buffer: a frame enters it, with address detect a data byte is ignored, a third byte is an overrun that
stops reception until CREN is cleared and set again, whatever SREN is, and reading RCREG takes the oldest byte away (R366,
R368, R369). The model's choices: a sleeping core receives nothing, and a frame under OERR changes nothing, RSR included
(log 34, inferred from R366, R382, R383); the third byte is lost (log 54); a write of RCSTA that leaves CREN at 0 clears
OERR and counts as the clearing (log 48, log 55). -/
def Obligations.ReceiveBuffer : Prop :=
  (∀ (s : State) (bits : BitVec 9) (stop : Bool),
    s.usart.rcsta.getLsbD 7 = true → s.usart.txsta.getLsbD 4 = false →
    (s.usart.rcsta.getLsbD 4 = true ∨ s.usart.rcsta.getLsbD 5 = true) →
    let t := eventStep false (.frame bits stop) s
    (s.sleeping = true → t.usart = s.usart) ∧
    (s.usart.rcsta.getLsbD 1 = true ∨ s.usart.rxStopped = true → t.usart = s.usart) ∧
    (s.sleeping = false → s.usart.rcsta.getLsbD 1 = false → s.usart.rxStopped = false →
      if s.usart.rcsta.getLsbD 6 = true ∧ s.usart.rcsta.getLsbD 3 = true ∧ bits.getLsbD 8 = false then
        t.usart = { s.usart with rsr := bits }
      else if 2 ≤ s.usart.fifo.length then
        t.usart.fifo = s.usart.fifo ∧ t.usart.rcsta.getLsbD 1 = true ∧ t.usart.rxStopped = true
      else
        t.usart.fifo.map RxByte.data = s.usart.fifo.map RxByte.data ++ [bits.extractLsb' 0 8] ∧
        (peek .pir1 t).getLsbD 5 = true ∧
        (s.usart.fifo = [] →
          peek .rcreg t = bits.extractLsb' 0 8 ∧ t.usart.rcsta.getLsbD 2 = !stop ∧
          (s.usart.rcsta.getLsbD 6 = true → t.usart.rcsta.getLsbD 0 = bits.getLsbD 8) ∧
          (peek .pir1 (readEffect .rcreg t)).getLsbD 5 = false))) ∧
  (∀ (s : State) (v w : Byte), s.usart.rcsta.getLsbD 1 = true → s.usart.rxStopped = true →
    let u := memWrite .rcsta v s
    if v.getLsbD 4 = true then u.usart.rcsta.getLsbD 1 = true ∧ u.usart.rxStopped = true
    else
      u.usart.rcsta.getLsbD 1 = false ∧ u.usart.rxStopped = true ∧
        (memWrite .rcsta w u).usart.rxStopped = !w.getLsbD 4)

/-! ## Reset -/

/-- PC, STATUS and PCON by reset cause, and the watchdog's wake-up, which resets no register (R404, R385); that it starts
the watchdog's count again is the model's choice (log 18). After a brown-out TO and PD are unknown, and after a power-on
reset Z, DC, C and BOD: nothing is said of them. -/
def Obligations.ResetStatusAndPcon : Prop :=
  ∀ s : State,
    (∀ c, (takeReset c s).pc = 0x0000 ∧ (takeReset c s).status &&& 0xE0 = 0) ∧
    (takeReset .por s).status &&& 0xF8 = 0x18 ∧ (takeReset .por s).pcon &&& 0xFE = 0x08 ∧
    (takeReset .mclr s).status = (if s.sleeping then 0x10 ||| (s.status &&& 0x07) else s.status &&& 0x1F) ∧
    (takeReset .mclr s).pcon = 0x08 ||| (s.pcon &&& 0x03) ∧
    (takeReset .wdt s).status = s.status &&& 0x0F ∧ (takeReset .wdt s).pcon = 0x08 ||| (s.pcon &&& 0x03) ∧
    (takeReset .bod s).status &&& 0x07 = s.status &&& 0x07 ∧ (takeReset .bod s).pcon = 0x08 ||| (s.pcon &&& 0x02) ∧
    wdtTimeout s =
      (if s.sleeping then
        { s with status := s.status &&& 0xEF, sleeping := false, prefetched := true, wdt := 0 }
      else takeReset .wdt s)

/-- What a reset other than power-on leaves: the "u" registers as before, the others at their reset values, the stack's
entries as before but emptied, no write in progress, an awake core (R90, R401, R403). That Timer1's prescaler and edge
detector stay, which no rule names, is the model's choice (log 39), and so is that WRERR stays when no write was aborted
(log 51). -/
def Obligations.OtherResetLeaves : Prop :=
  ∀ (s : State) (c : ResetCause), c ≠ .por →
    let t := takeReset c s
    t.w = s.w ∧ t.fsr = s.fsr ∧ t.ram = s.ram ∧ t.t0.tmr0 = s.t0.tmr0 ∧ t.t1 = s.t1 ∧ t.ccp.lo = s.ccp.lo ∧
    t.ccp.hi = s.ccp.hi ∧ t.io.latB = s.io.latB ∧ t.io.latA &&& 0x0F = s.io.latA &&& 0x08 ∧ t.stk = s.stk ∧
    t.ee.data = s.ee.data ∧ t.ee.adr = s.ee.adr ∧
    t.intcon = s.intcon &&& 0x01 ∧ t.pclath = 0 ∧ t.sp = 0 ∧ t.pir1 = 0 ∧ t.pie1 = 0 ∧ t.t2 = State.reset.t2 ∧
    t.ccp.con = 0 ∧ t.usart.rcsta &&& 0xFE = 0 ∧ peek .rcreg t = 0 ∧ peek .txsta t = 0x02 ∧ t.usart.spbrg = 0 ∧
    t.usart.txreg = 0 ∧ t.io.trisB = 0xFF ∧ t.io.trisA = 0xDF ∧ t.option = 0xFF ∧ t.cmp.con = 0 ∧ t.cmp.vrcon = 0 ∧
    t.t0.prescaler = 0 ∧ t.wdt = 0 ∧ t.sleeping = false ∧ t.ee.unlock = .idle ∧ t.ee.write = none ∧
    t.ee.con1 = (if s.ee.write.isSome then 0x08 else s.ee.con1 &&& 0x08) ∧
    (s.ee.write = none → t.ee.cells = s.ee.cells) ∧ irq t = false

/-- The registers of the state after power-on reset, where R90 gives a value (PORTA<3:0>: its latch). -/
def Obligations.PowerOnResetValues : Prop :=
  let s := State.reset
  s.pc = 0x0000 ∧ s.status &&& 0xF8 = 0x18 ∧ s.pclath = 0 ∧ s.io.latA &&& 0x0F = 0 ∧ s.intcon &&& 0xFE = 0 ∧
  peek .pir1 s = 0 ∧ peek .pie1 s = 0 ∧ peek .t1con s = 0 ∧ peek .tmr2 s = 0 ∧ peek .t2con s = 0 ∧ peek .pr2 s = 0xFF ∧
  peek .ccp1con s = 0 ∧ peek .rcsta s &&& 0xFE = 0 ∧ peek .txreg s = 0 ∧ peek .rcreg s = 0 ∧ peek .cmcon s = 0 ∧
  peek .option s = 0xFF ∧ peek .trisa s = 0xDF ∧ peek .trisb s = 0xFF ∧ peek .pcon s &&& 0xFE = 0x08 ∧
  peek .txsta s = 0x02 ∧ peek .spbrg s = 0 ∧ peek .eecon1 s &&& 0xF7 = 0 ∧ peek .eecon2 s = 0 ∧ peek .vrcon s = 0 ∧
  s.t0.prescaler = 0 ∧ s.wdt = 0 ∧ s.t2.pre = 0 ∧ s.t2.post = 0 ∧ s.sleeping = false ∧ irq s = false

/-! ## The step -/

/-- A step runs the instruction at PC when no interrupt is due, the core is awake and the schedule lets the CPU move:
the fields that change as an instruction begins are set, `exec` runs, the instruction's cycles pass and the pins are
sampled (R35, R430). That the cycles pass after the effect and the pins are sampled then is the model's choice (log 19),
under an empty schedule (log 1), with one boundary counted for the watchdog (log 18). -/
def Obligations.StepRunsDecodedInstruction : Prop :=
  ∀ (s : State) (i : Instr) (w : InsnWord),
    s.env = [] → s.sleeping = false → (irq s = false ∨ s.prefetched = true) → s.pc.toNat < 0x400 →
    Memory.find s.prog s.pc.toNat = some w → decode w = some i →
    step s =
      match exec i { s with
          prefetched := false
          irqHeld := requests s
          rmw := .none
          wdt := s.wdt + 1
          cmp := { s.cmp with moved := false }
          ee := { s.ee with unlock := unlockNext i s } } with
      | .next t => .next (sample (endWrite (tickN t.cycles { t with irqHeld := t.irqHeld &&& requests t })))
      | .fault r => .fault r
      | .refused r => .refused r

/-- The machine's three stops, and no other: PC at or above 0400h, a word the program does not define, a word no row
lists (R37, R412, R159). That each of them stops is the model's choice, the value that D2, D32 and D7 recommend
(logs 7, 6 and 8). -/
def Obligations.StepStopsOnlyAtFetch : Prop :=
  ∀ s : State,
    (∀ r, step s ≠ .refused r) ∧
    (∀ r, step s = .fault r →
      s.sleeping = false ∧
      ((r = .fetchOutside s.pc ∧ 0x400 ≤ s.pc.toNat) ∨
        (r = .undefinedWord s.pc ∧ s.pc.toNat < 0x400 ∧ Memory.find s.prog s.pc.toNat = none) ∨
        ∃ w, r = .unlistedOpcode w ∧ s.pc.toNat < 0x400 ∧ Memory.find s.prog s.pc.toNat = some w ∧ decode w = none)) ∧
    (s.env = [] → s.sleeping = false → irq s = false →
      (0x400 ≤ s.pc.toNat → step s = .fault (.fetchOutside s.pc)) ∧
      (s.pc.toNat < 0x400 → Memory.find s.prog s.pc.toNat = none → step s = .fault (.undefinedWord s.pc)) ∧
      ∀ w, s.pc.toNat < 0x400 → Memory.find s.prog s.pc.toNat = some w → decode w = none →
        step s = .fault (.unlistedOpcode w))

/-- The invariant holds of the state after reset. -/
def Obligations.ResetMeetsInvariant : Prop := State.Inv State.reset

/-- Every step keeps the invariant: memories canonical and within their addresses, unimplemented bits 0, counters in range,
the receive buffer at most two deep, reception stopped under OERR and with CREN set only under OERR (R366; log 55), and no
core asleep and woken. -/
def Obligations.StepKeepsInvariant : Prop := ∀ s t : State, s.Inv → step s = .next t → t.Inv
end

