-- ==== Sys2Proof/Laws/State.lean ====
section
/-! SUPPORT. What each named update of the state leaves in each field. -/

namespace Sys2Proof.Machine

@[simp] theorem advance_w (s : State) : (advance s).w = s.w := rfl
@[simp] theorem advance_pc (s : State) : (advance s).pc = s.pc + 1 := rfl
@[simp] theorem advance_stk (s : State) : (advance s).stk = s.stk := rfl
@[simp] theorem advance_sp (s : State) : (advance s).sp = s.sp := rfl
@[simp] theorem advance_status (s : State) : (advance s).status = s.status := rfl
@[simp] theorem advance_fsr (s : State) : (advance s).fsr = s.fsr := rfl
@[simp] theorem advance_pclath (s : State) : (advance s).pclath = s.pclath := rfl
@[simp] theorem advance_ram (s : State) : (advance s).ram = s.ram := rfl
@[simp] theorem advance_prog (s : State) : (advance s).prog = s.prog := rfl
@[simp] theorem advance_sleeping (s : State) : (advance s).sleeping = s.sleeping := rfl
@[simp] theorem advance_prefetched (s : State) : (advance s).prefetched = s.prefetched := rfl
@[simp] theorem advance_intcon (s : State) : (advance s).intcon = s.intcon := rfl
@[simp] theorem advance_pir1 (s : State) : (advance s).pir1 = s.pir1 := rfl
@[simp] theorem advance_pie1 (s : State) : (advance s).pie1 = s.pie1 := rfl
@[simp] theorem advance_option (s : State) : (advance s).option = s.option := rfl
@[simp] theorem advance_pcon (s : State) : (advance s).pcon = s.pcon := rfl
@[simp] theorem advance_wdt (s : State) : (advance s).wdt = s.wdt := rfl
@[simp] theorem advance_t0 (s : State) : (advance s).t0 = s.t0 := rfl
@[simp] theorem advance_t1 (s : State) : (advance s).t1 = s.t1 := rfl
@[simp] theorem advance_t2 (s : State) : (advance s).t2 = s.t2 := rfl
@[simp] theorem advance_ccp (s : State) : (advance s).ccp = s.ccp := rfl
@[simp] theorem advance_usart (s : State) : (advance s).usart = s.usart := rfl
@[simp] theorem advance_cmp (s : State) : (advance s).cmp = s.cmp := rfl
@[simp] theorem advance_ee (s : State) : (advance s).ee = s.ee := rfl
@[simp] theorem advance_io (s : State) : (advance s).io = s.io := rfl
@[simp] theorem advance_cycles (s : State) : (advance s).cycles = 1 := rfl
@[simp] theorem advance_rmw (s : State) : (advance s).rmw = s.rmw := rfl
@[simp] theorem advance_irqHeld (s : State) : (advance s).irqHeld = s.irqHeld := rfl
@[simp] theorem advance_freeIx (s : State) : (advance s).freeIx = s.freeIx := rfl
@[simp] theorem advance_env (s : State) : (advance s).env = s.env := rfl

@[simp] theorem skip_w (s : State) : (skip s).w = s.w := rfl
@[simp] theorem skip_pc (s : State) : (skip s).pc = s.pc + 2 := rfl
@[simp] theorem skip_stk (s : State) : (skip s).stk = s.stk := rfl
@[simp] theorem skip_sp (s : State) : (skip s).sp = s.sp := rfl
@[simp] theorem skip_status (s : State) : (skip s).status = s.status := rfl
@[simp] theorem skip_fsr (s : State) : (skip s).fsr = s.fsr := rfl
@[simp] theorem skip_pclath (s : State) : (skip s).pclath = s.pclath := rfl
@[simp] theorem skip_ram (s : State) : (skip s).ram = s.ram := rfl
@[simp] theorem skip_prog (s : State) : (skip s).prog = s.prog := rfl
@[simp] theorem skip_sleeping (s : State) : (skip s).sleeping = s.sleeping := rfl
@[simp] theorem skip_prefetched (s : State) : (skip s).prefetched = s.prefetched := rfl
@[simp] theorem skip_intcon (s : State) : (skip s).intcon = s.intcon := rfl
@[simp] theorem skip_pir1 (s : State) : (skip s).pir1 = s.pir1 := rfl
@[simp] theorem skip_pie1 (s : State) : (skip s).pie1 = s.pie1 := rfl
@[simp] theorem skip_option (s : State) : (skip s).option = s.option := rfl
@[simp] theorem skip_pcon (s : State) : (skip s).pcon = s.pcon := rfl
@[simp] theorem skip_wdt (s : State) : (skip s).wdt = s.wdt := rfl
@[simp] theorem skip_t0 (s : State) : (skip s).t0 = s.t0 := rfl
@[simp] theorem skip_t1 (s : State) : (skip s).t1 = s.t1 := rfl
@[simp] theorem skip_t2 (s : State) : (skip s).t2 = s.t2 := rfl
@[simp] theorem skip_ccp (s : State) : (skip s).ccp = s.ccp := rfl
@[simp] theorem skip_usart (s : State) : (skip s).usart = s.usart := rfl
@[simp] theorem skip_cmp (s : State) : (skip s).cmp = s.cmp := rfl
@[simp] theorem skip_ee (s : State) : (skip s).ee = s.ee := rfl
@[simp] theorem skip_io (s : State) : (skip s).io = s.io := rfl
@[simp] theorem skip_cycles (s : State) : (skip s).cycles = 2 := rfl
@[simp] theorem skip_rmw (s : State) : (skip s).rmw = s.rmw := rfl
@[simp] theorem skip_irqHeld (s : State) : (skip s).irqHeld = s.irqHeld := rfl
@[simp] theorem skip_freeIx (s : State) : (skip s).freeIx = s.freeIx := rfl
@[simp] theorem skip_env (s : State) : (skip s).env = s.env := rfl

@[simp] theorem jump_w (t : CodeAddr) (s : State) : (jump t s).w = s.w := rfl
@[simp] theorem jump_pc (t : CodeAddr) (s : State) : (jump t s).pc = t := rfl
@[simp] theorem jump_stk (t : CodeAddr) (s : State) : (jump t s).stk = s.stk := rfl
@[simp] theorem jump_sp (t : CodeAddr) (s : State) : (jump t s).sp = s.sp := rfl
@[simp] theorem jump_status (t : CodeAddr) (s : State) : (jump t s).status = s.status := rfl
@[simp] theorem jump_fsr (t : CodeAddr) (s : State) : (jump t s).fsr = s.fsr := rfl
@[simp] theorem jump_pclath (t : CodeAddr) (s : State) : (jump t s).pclath = s.pclath := rfl
@[simp] theorem jump_ram (t : CodeAddr) (s : State) : (jump t s).ram = s.ram := rfl
@[simp] theorem jump_prog (t : CodeAddr) (s : State) : (jump t s).prog = s.prog := rfl
@[simp] theorem jump_sleeping (t : CodeAddr) (s : State) : (jump t s).sleeping = s.sleeping := rfl
@[simp] theorem jump_prefetched (t : CodeAddr) (s : State) : (jump t s).prefetched = s.prefetched := rfl
@[simp] theorem jump_intcon (t : CodeAddr) (s : State) : (jump t s).intcon = s.intcon := rfl
@[simp] theorem jump_pir1 (t : CodeAddr) (s : State) : (jump t s).pir1 = s.pir1 := rfl
@[simp] theorem jump_pie1 (t : CodeAddr) (s : State) : (jump t s).pie1 = s.pie1 := rfl
@[simp] theorem jump_option (t : CodeAddr) (s : State) : (jump t s).option = s.option := rfl
@[simp] theorem jump_pcon (t : CodeAddr) (s : State) : (jump t s).pcon = s.pcon := rfl
@[simp] theorem jump_wdt (t : CodeAddr) (s : State) : (jump t s).wdt = s.wdt := rfl
@[simp] theorem jump_t0 (t : CodeAddr) (s : State) : (jump t s).t0 = s.t0 := rfl
@[simp] theorem jump_t1 (t : CodeAddr) (s : State) : (jump t s).t1 = s.t1 := rfl
@[simp] theorem jump_t2 (t : CodeAddr) (s : State) : (jump t s).t2 = s.t2 := rfl
@[simp] theorem jump_ccp (t : CodeAddr) (s : State) : (jump t s).ccp = s.ccp := rfl
@[simp] theorem jump_usart (t : CodeAddr) (s : State) : (jump t s).usart = s.usart := rfl
@[simp] theorem jump_cmp (t : CodeAddr) (s : State) : (jump t s).cmp = s.cmp := rfl
@[simp] theorem jump_ee (t : CodeAddr) (s : State) : (jump t s).ee = s.ee := rfl
@[simp] theorem jump_io (t : CodeAddr) (s : State) : (jump t s).io = s.io := rfl
@[simp] theorem jump_cycles (t : CodeAddr) (s : State) : (jump t s).cycles = 2 := rfl
@[simp] theorem jump_rmw (t : CodeAddr) (s : State) : (jump t s).rmw = s.rmw := rfl
@[simp] theorem jump_irqHeld (t : CodeAddr) (s : State) : (jump t s).irqHeld = s.irqHeld := rfl
@[simp] theorem jump_freeIx (t : CodeAddr) (s : State) : (jump t s).freeIx = s.freeIx := rfl
@[simp] theorem jump_env (t : CodeAddr) (s : State) : (jump t s).env = s.env := rfl

@[simp] theorem push_w (v : CodeAddr) (s : State) : (push v s).w = s.w := rfl
@[simp] theorem push_pc (v : CodeAddr) (s : State) : (push v s).pc = s.pc := rfl
@[simp] theorem push_stk (v : CodeAddr) (s : State) : (push v s).stk = s.stk.set s.sp.toNat v s.sp.isLt := rfl
@[simp] theorem push_sp (v : CodeAddr) (s : State) : (push v s).sp = s.sp + 1 := rfl
@[simp] theorem push_status (v : CodeAddr) (s : State) : (push v s).status = s.status := rfl
@[simp] theorem push_fsr (v : CodeAddr) (s : State) : (push v s).fsr = s.fsr := rfl
@[simp] theorem push_pclath (v : CodeAddr) (s : State) : (push v s).pclath = s.pclath := rfl
@[simp] theorem push_ram (v : CodeAddr) (s : State) : (push v s).ram = s.ram := rfl
@[simp] theorem push_prog (v : CodeAddr) (s : State) : (push v s).prog = s.prog := rfl
@[simp] theorem push_sleeping (v : CodeAddr) (s : State) : (push v s).sleeping = s.sleeping := rfl
@[simp] theorem push_prefetched (v : CodeAddr) (s : State) : (push v s).prefetched = s.prefetched := rfl
@[simp] theorem push_intcon (v : CodeAddr) (s : State) : (push v s).intcon = s.intcon := rfl
@[simp] theorem push_pir1 (v : CodeAddr) (s : State) : (push v s).pir1 = s.pir1 := rfl
@[simp] theorem push_pie1 (v : CodeAddr) (s : State) : (push v s).pie1 = s.pie1 := rfl
@[simp] theorem push_option (v : CodeAddr) (s : State) : (push v s).option = s.option := rfl
@[simp] theorem push_pcon (v : CodeAddr) (s : State) : (push v s).pcon = s.pcon := rfl
@[simp] theorem push_wdt (v : CodeAddr) (s : State) : (push v s).wdt = s.wdt := rfl
@[simp] theorem push_t0 (v : CodeAddr) (s : State) : (push v s).t0 = s.t0 := rfl
@[simp] theorem push_t1 (v : CodeAddr) (s : State) : (push v s).t1 = s.t1 := rfl
@[simp] theorem push_t2 (v : CodeAddr) (s : State) : (push v s).t2 = s.t2 := rfl
@[simp] theorem push_ccp (v : CodeAddr) (s : State) : (push v s).ccp = s.ccp := rfl
@[simp] theorem push_usart (v : CodeAddr) (s : State) : (push v s).usart = s.usart := rfl
@[simp] theorem push_cmp (v : CodeAddr) (s : State) : (push v s).cmp = s.cmp := rfl
@[simp] theorem push_ee (v : CodeAddr) (s : State) : (push v s).ee = s.ee := rfl
@[simp] theorem push_io (v : CodeAddr) (s : State) : (push v s).io = s.io := rfl
@[simp] theorem push_cycles (v : CodeAddr) (s : State) : (push v s).cycles = s.cycles := rfl
@[simp] theorem push_rmw (v : CodeAddr) (s : State) : (push v s).rmw = s.rmw := rfl
@[simp] theorem push_irqHeld (v : CodeAddr) (s : State) : (push v s).irqHeld = s.irqHeld := rfl
@[simp] theorem push_freeIx (v : CodeAddr) (s : State) : (push v s).freeIx = s.freeIx := rfl
@[simp] theorem push_env (v : CodeAddr) (s : State) : (push v s).env = s.env := rfl

@[simp] theorem pop_w (s : State) : (pop s).w = s.w := rfl
@[simp] theorem pop_pc (s : State) : (pop s).pc = s.pc := rfl
@[simp] theorem pop_stk (s : State) : (pop s).stk = s.stk := rfl
@[simp] theorem pop_sp (s : State) : (pop s).sp = s.sp - 1 := rfl
@[simp] theorem pop_status (s : State) : (pop s).status = s.status := rfl
@[simp] theorem pop_fsr (s : State) : (pop s).fsr = s.fsr := rfl
@[simp] theorem pop_pclath (s : State) : (pop s).pclath = s.pclath := rfl
@[simp] theorem pop_ram (s : State) : (pop s).ram = s.ram := rfl
@[simp] theorem pop_prog (s : State) : (pop s).prog = s.prog := rfl
@[simp] theorem pop_sleeping (s : State) : (pop s).sleeping = s.sleeping := rfl
@[simp] theorem pop_prefetched (s : State) : (pop s).prefetched = s.prefetched := rfl
@[simp] theorem pop_intcon (s : State) : (pop s).intcon = s.intcon := rfl
@[simp] theorem pop_pir1 (s : State) : (pop s).pir1 = s.pir1 := rfl
@[simp] theorem pop_pie1 (s : State) : (pop s).pie1 = s.pie1 := rfl
@[simp] theorem pop_option (s : State) : (pop s).option = s.option := rfl
@[simp] theorem pop_pcon (s : State) : (pop s).pcon = s.pcon := rfl
@[simp] theorem pop_wdt (s : State) : (pop s).wdt = s.wdt := rfl
@[simp] theorem pop_t0 (s : State) : (pop s).t0 = s.t0 := rfl
@[simp] theorem pop_t1 (s : State) : (pop s).t1 = s.t1 := rfl
@[simp] theorem pop_t2 (s : State) : (pop s).t2 = s.t2 := rfl
@[simp] theorem pop_ccp (s : State) : (pop s).ccp = s.ccp := rfl
@[simp] theorem pop_usart (s : State) : (pop s).usart = s.usart := rfl
@[simp] theorem pop_cmp (s : State) : (pop s).cmp = s.cmp := rfl
@[simp] theorem pop_ee (s : State) : (pop s).ee = s.ee := rfl
@[simp] theorem pop_io (s : State) : (pop s).io = s.io := rfl
@[simp] theorem pop_cycles (s : State) : (pop s).cycles = s.cycles := rfl
@[simp] theorem pop_rmw (s : State) : (pop s).rmw = s.rmw := rfl
@[simp] theorem pop_irqHeld (s : State) : (pop s).irqHeld = s.irqHeld := rfl
@[simp] theorem pop_freeIx (s : State) : (pop s).freeIx = s.freeIx := rfl
@[simp] theorem pop_env (s : State) : (pop s).env = s.env := rfl

@[simp] theorem State.spend_w (s : State) : s.spend.w = s.w := rfl
@[simp] theorem State.spend_pc (s : State) : s.spend.pc = s.pc := rfl
@[simp] theorem State.spend_stk (s : State) : s.spend.stk = s.stk := rfl
@[simp] theorem State.spend_sp (s : State) : s.spend.sp = s.sp := rfl
@[simp] theorem State.spend_status (s : State) : s.spend.status = s.status := rfl
@[simp] theorem State.spend_fsr (s : State) : s.spend.fsr = s.fsr := rfl
@[simp] theorem State.spend_pclath (s : State) : s.spend.pclath = s.pclath := rfl
@[simp] theorem State.spend_ram (s : State) : s.spend.ram = s.ram := rfl
@[simp] theorem State.spend_prog (s : State) : s.spend.prog = s.prog := rfl
@[simp] theorem State.spend_sleeping (s : State) : s.spend.sleeping = s.sleeping := rfl
@[simp] theorem State.spend_prefetched (s : State) : s.spend.prefetched = s.prefetched := rfl
@[simp] theorem State.spend_intcon (s : State) : s.spend.intcon = s.intcon := rfl
@[simp] theorem State.spend_pir1 (s : State) : s.spend.pir1 = s.pir1 := rfl
@[simp] theorem State.spend_pie1 (s : State) : s.spend.pie1 = s.pie1 := rfl
@[simp] theorem State.spend_option (s : State) : s.spend.option = s.option := rfl
@[simp] theorem State.spend_pcon (s : State) : s.spend.pcon = s.pcon := rfl
@[simp] theorem State.spend_wdt (s : State) : s.spend.wdt = s.wdt := rfl
@[simp] theorem State.spend_t0 (s : State) : s.spend.t0 = s.t0 := rfl
@[simp] theorem State.spend_t1 (s : State) : s.spend.t1 = s.t1 := rfl
@[simp] theorem State.spend_t2 (s : State) : s.spend.t2 = s.t2 := rfl
@[simp] theorem State.spend_ccp (s : State) : s.spend.ccp = s.ccp := rfl
@[simp] theorem State.spend_usart (s : State) : s.spend.usart = s.usart := rfl
@[simp] theorem State.spend_cmp (s : State) : s.spend.cmp = s.cmp := rfl
@[simp] theorem State.spend_ee (s : State) : s.spend.ee = s.ee := rfl
@[simp] theorem State.spend_io (s : State) : s.spend.io = s.io := rfl
@[simp] theorem State.spend_cycles (s : State) : s.spend.cycles = s.cycles := rfl
@[simp] theorem State.spend_rmw (s : State) : s.spend.rmw = s.rmw := rfl
@[simp] theorem State.spend_irqHeld (s : State) : s.spend.irqHeld = s.irqHeld := rfl
@[simp] theorem State.spend_freeIx (s : State) : s.spend.freeIx = s.freeIx + 1 := rfl
@[simp] theorem State.spend_env (s : State) : s.spend.env = s.env := rfl

@[simp] theorem clearWdt_w (s : State) : (clearWdt s).w = s.w := rfl
@[simp] theorem clearWdt_pc (s : State) : (clearWdt s).pc = s.pc := rfl
@[simp] theorem clearWdt_stk (s : State) : (clearWdt s).stk = s.stk := rfl
@[simp] theorem clearWdt_sp (s : State) : (clearWdt s).sp = s.sp := rfl
@[simp] theorem clearWdt_status (s : State) : (clearWdt s).status = s.status := rfl
@[simp] theorem clearWdt_fsr (s : State) : (clearWdt s).fsr = s.fsr := rfl
@[simp] theorem clearWdt_pclath (s : State) : (clearWdt s).pclath = s.pclath := rfl
@[simp] theorem clearWdt_ram (s : State) : (clearWdt s).ram = s.ram := rfl
@[simp] theorem clearWdt_prog (s : State) : (clearWdt s).prog = s.prog := rfl
@[simp] theorem clearWdt_sleeping (s : State) : (clearWdt s).sleeping = s.sleeping := rfl
@[simp] theorem clearWdt_prefetched (s : State) : (clearWdt s).prefetched = s.prefetched := rfl
@[simp] theorem clearWdt_intcon (s : State) : (clearWdt s).intcon = s.intcon := rfl
@[simp] theorem clearWdt_pir1 (s : State) : (clearWdt s).pir1 = s.pir1 := rfl
@[simp] theorem clearWdt_pie1 (s : State) : (clearWdt s).pie1 = s.pie1 := rfl
@[simp] theorem clearWdt_option (s : State) : (clearWdt s).option = s.option := rfl
@[simp] theorem clearWdt_pcon (s : State) : (clearWdt s).pcon = s.pcon := rfl
@[simp] theorem clearWdt_wdt (s : State) : (clearWdt s).wdt = 0 := rfl
@[simp] theorem clearWdt_t0 (s : State) : (clearWdt s).t0 = { s.t0 with
        prescaler := if s.psa then 0 else s.t0.prescaler, counted := !s.psa && s.t0.counted } := rfl
@[simp] theorem clearWdt_t1 (s : State) : (clearWdt s).t1 = s.t1 := rfl
@[simp] theorem clearWdt_t2 (s : State) : (clearWdt s).t2 = s.t2 := rfl
@[simp] theorem clearWdt_ccp (s : State) : (clearWdt s).ccp = s.ccp := rfl
@[simp] theorem clearWdt_usart (s : State) : (clearWdt s).usart = s.usart := rfl
@[simp] theorem clearWdt_cmp (s : State) : (clearWdt s).cmp = s.cmp := rfl
@[simp] theorem clearWdt_ee (s : State) : (clearWdt s).ee = s.ee := rfl
@[simp] theorem clearWdt_io (s : State) : (clearWdt s).io = s.io := rfl
@[simp] theorem clearWdt_cycles (s : State) : (clearWdt s).cycles = s.cycles := rfl
@[simp] theorem clearWdt_rmw (s : State) : (clearWdt s).rmw = s.rmw := rfl
@[simp] theorem clearWdt_irqHeld (s : State) : (clearWdt s).irqHeld = s.irqHeld := rfl
@[simp] theorem clearWdt_freeIx (s : State) : (clearWdt s).freeIx = s.freeIx := rfl
@[simp] theorem clearWdt_env (s : State) : (clearWdt s).env = s.env := rfl

@[simp] theorem setTmr1_w (v : BitVec 16) (s : State) : (setTmr1 v s).w = s.w := rfl
@[simp] theorem setTmr1_pc (v : BitVec 16) (s : State) : (setTmr1 v s).pc = s.pc := rfl
@[simp] theorem setTmr1_stk (v : BitVec 16) (s : State) : (setTmr1 v s).stk = s.stk := rfl
@[simp] theorem setTmr1_sp (v : BitVec 16) (s : State) : (setTmr1 v s).sp = s.sp := rfl
@[simp] theorem setTmr1_status (v : BitVec 16) (s : State) : (setTmr1 v s).status = s.status := rfl
@[simp] theorem setTmr1_fsr (v : BitVec 16) (s : State) : (setTmr1 v s).fsr = s.fsr := rfl
@[simp] theorem setTmr1_pclath (v : BitVec 16) (s : State) : (setTmr1 v s).pclath = s.pclath := rfl
@[simp] theorem setTmr1_ram (v : BitVec 16) (s : State) : (setTmr1 v s).ram = s.ram := rfl
@[simp] theorem setTmr1_prog (v : BitVec 16) (s : State) : (setTmr1 v s).prog = s.prog := rfl
@[simp] theorem setTmr1_sleeping (v : BitVec 16) (s : State) : (setTmr1 v s).sleeping = s.sleeping := rfl
@[simp] theorem setTmr1_prefetched (v : BitVec 16) (s : State) : (setTmr1 v s).prefetched = s.prefetched := rfl
@[simp] theorem setTmr1_intcon (v : BitVec 16) (s : State) : (setTmr1 v s).intcon = s.intcon := rfl
@[simp] theorem setTmr1_pir1 (v : BitVec 16) (s : State) : (setTmr1 v s).pir1 = s.pir1 := rfl
@[simp] theorem setTmr1_pie1 (v : BitVec 16) (s : State) : (setTmr1 v s).pie1 = s.pie1 := rfl
@[simp] theorem setTmr1_option (v : BitVec 16) (s : State) : (setTmr1 v s).option = s.option := rfl
@[simp] theorem setTmr1_pcon (v : BitVec 16) (s : State) : (setTmr1 v s).pcon = s.pcon := rfl
@[simp] theorem setTmr1_wdt (v : BitVec 16) (s : State) : (setTmr1 v s).wdt = s.wdt := rfl
@[simp] theorem setTmr1_t0 (v : BitVec 16) (s : State) : (setTmr1 v s).t0 = s.t0 := rfl
@[simp] theorem setTmr1_t1 (v : BitVec 16) (s : State) : (setTmr1 v s).t1 = { s.t1 with hi := v.extractLsb' 8 8, lo := v.extractLsb' 0 8 } := rfl
@[simp] theorem setTmr1_t2 (v : BitVec 16) (s : State) : (setTmr1 v s).t2 = s.t2 := rfl
@[simp] theorem setTmr1_ccp (v : BitVec 16) (s : State) : (setTmr1 v s).ccp = s.ccp := rfl
@[simp] theorem setTmr1_usart (v : BitVec 16) (s : State) : (setTmr1 v s).usart = s.usart := rfl
@[simp] theorem setTmr1_cmp (v : BitVec 16) (s : State) : (setTmr1 v s).cmp = s.cmp := rfl
@[simp] theorem setTmr1_ee (v : BitVec 16) (s : State) : (setTmr1 v s).ee = s.ee := rfl
@[simp] theorem setTmr1_io (v : BitVec 16) (s : State) : (setTmr1 v s).io = s.io := rfl
@[simp] theorem setTmr1_cycles (v : BitVec 16) (s : State) : (setTmr1 v s).cycles = s.cycles := rfl
@[simp] theorem setTmr1_rmw (v : BitVec 16) (s : State) : (setTmr1 v s).rmw = s.rmw := rfl
@[simp] theorem setTmr1_irqHeld (v : BitVec 16) (s : State) : (setTmr1 v s).irqHeld = s.irqHeld := rfl
@[simp] theorem setTmr1_freeIx (v : BitVec 16) (s : State) : (setTmr1 v s).freeIx = s.freeIx := rfl
@[simp] theorem setTmr1_env (v : BitVec 16) (s : State) : (setTmr1 v s).env = s.env := rfl

@[simp] theorem beginInstr_w (i : Instr) (s : State) : (beginInstr i s).w = s.w := rfl
@[simp] theorem beginInstr_pc (i : Instr) (s : State) : (beginInstr i s).pc = s.pc := rfl
@[simp] theorem beginInstr_stk (i : Instr) (s : State) : (beginInstr i s).stk = s.stk := rfl
@[simp] theorem beginInstr_sp (i : Instr) (s : State) : (beginInstr i s).sp = s.sp := rfl
@[simp] theorem beginInstr_status (i : Instr) (s : State) : (beginInstr i s).status = s.status := rfl
@[simp] theorem beginInstr_fsr (i : Instr) (s : State) : (beginInstr i s).fsr = s.fsr := rfl
@[simp] theorem beginInstr_pclath (i : Instr) (s : State) : (beginInstr i s).pclath = s.pclath := rfl
@[simp] theorem beginInstr_ram (i : Instr) (s : State) : (beginInstr i s).ram = s.ram := rfl
@[simp] theorem beginInstr_prog (i : Instr) (s : State) : (beginInstr i s).prog = s.prog := rfl
@[simp] theorem beginInstr_sleeping (i : Instr) (s : State) : (beginInstr i s).sleeping = s.sleeping := rfl
@[simp] theorem beginInstr_prefetched (i : Instr) (s : State) : (beginInstr i s).prefetched = false := rfl
@[simp] theorem beginInstr_intcon (i : Instr) (s : State) : (beginInstr i s).intcon = s.intcon := rfl
@[simp] theorem beginInstr_pir1 (i : Instr) (s : State) : (beginInstr i s).pir1 = s.pir1 := rfl
@[simp] theorem beginInstr_pie1 (i : Instr) (s : State) : (beginInstr i s).pie1 = s.pie1 := rfl
@[simp] theorem beginInstr_option (i : Instr) (s : State) : (beginInstr i s).option = s.option := rfl
@[simp] theorem beginInstr_pcon (i : Instr) (s : State) : (beginInstr i s).pcon = s.pcon := rfl
@[simp] theorem beginInstr_wdt (i : Instr) (s : State) : (beginInstr i s).wdt = s.wdt + 1 := rfl
@[simp] theorem beginInstr_t0 (i : Instr) (s : State) : (beginInstr i s).t0 = s.t0 := rfl
@[simp] theorem beginInstr_t1 (i : Instr) (s : State) : (beginInstr i s).t1 = s.t1 := rfl
@[simp] theorem beginInstr_t2 (i : Instr) (s : State) : (beginInstr i s).t2 = s.t2 := rfl
@[simp] theorem beginInstr_ccp (i : Instr) (s : State) : (beginInstr i s).ccp = s.ccp := rfl
@[simp] theorem beginInstr_usart (i : Instr) (s : State) : (beginInstr i s).usart = s.usart := rfl
@[simp] theorem beginInstr_cmp (i : Instr) (s : State) : (beginInstr i s).cmp = { s.cmp with moved := false } := rfl
@[simp] theorem beginInstr_ee (i : Instr) (s : State) : (beginInstr i s).ee = { s.ee with unlock := unlockNext i s } := rfl
@[simp] theorem beginInstr_io (i : Instr) (s : State) : (beginInstr i s).io = s.io := rfl
@[simp] theorem beginInstr_cycles (i : Instr) (s : State) : (beginInstr i s).cycles = s.cycles := rfl
@[simp] theorem beginInstr_rmw (i : Instr) (s : State) : (beginInstr i s).rmw = .none := rfl
@[simp] theorem beginInstr_irqHeld (i : Instr) (s : State) : (beginInstr i s).irqHeld = requests s := rfl
@[simp] theorem beginInstr_freeIx (i : Instr) (s : State) : (beginInstr i s).freeIx = s.freeIx := rfl
@[simp] theorem beginInstr_env (i : Instr) (s : State) : (beginInstr i s).env = s.env := rfl

@[simp] theorem endWrite_w (s : State) : (endWrite s).w = s.w := rfl
@[simp] theorem endWrite_pc (s : State) : (endWrite s).pc = s.pc := rfl
@[simp] theorem endWrite_stk (s : State) : (endWrite s).stk = s.stk := rfl
@[simp] theorem endWrite_sp (s : State) : (endWrite s).sp = s.sp := rfl
@[simp] theorem endWrite_status (s : State) : (endWrite s).status = s.status := rfl
@[simp] theorem endWrite_fsr (s : State) : (endWrite s).fsr = s.fsr := rfl
@[simp] theorem endWrite_pclath (s : State) : (endWrite s).pclath = s.pclath := rfl
@[simp] theorem endWrite_ram (s : State) : (endWrite s).ram = s.ram := rfl
@[simp] theorem endWrite_prog (s : State) : (endWrite s).prog = s.prog := rfl
@[simp] theorem endWrite_sleeping (s : State) : (endWrite s).sleeping = s.sleeping := rfl
@[simp] theorem endWrite_prefetched (s : State) : (endWrite s).prefetched = s.prefetched := rfl
@[simp] theorem endWrite_intcon (s : State) : (endWrite s).intcon = s.intcon := rfl
@[simp] theorem endWrite_pir1 (s : State) : (endWrite s).pir1 = s.pir1 := rfl
@[simp] theorem endWrite_pie1 (s : State) : (endWrite s).pie1 = s.pie1 := rfl
@[simp] theorem endWrite_option (s : State) : (endWrite s).option = s.option := rfl
@[simp] theorem endWrite_pcon (s : State) : (endWrite s).pcon = s.pcon := rfl
@[simp] theorem endWrite_wdt (s : State) : (endWrite s).wdt = s.wdt := rfl
@[simp] theorem endWrite_t0 (s : State) : (endWrite s).t0 = { s.t0 with wrote := false } := rfl
@[simp] theorem endWrite_t1 (s : State) : (endWrite s).t1 = s.t1 := rfl
@[simp] theorem endWrite_t2 (s : State) : (endWrite s).t2 = s.t2 := rfl
@[simp] theorem endWrite_ccp (s : State) : (endWrite s).ccp = s.ccp := rfl
@[simp] theorem endWrite_usart (s : State) : (endWrite s).usart = s.usart := rfl
@[simp] theorem endWrite_cmp (s : State) : (endWrite s).cmp = s.cmp := rfl
@[simp] theorem endWrite_ee (s : State) : (endWrite s).ee = s.ee := rfl
@[simp] theorem endWrite_io (s : State) : (endWrite s).io = s.io := rfl
@[simp] theorem endWrite_cycles (s : State) : (endWrite s).cycles = s.cycles := rfl
@[simp] theorem endWrite_rmw (s : State) : (endWrite s).rmw = s.rmw := rfl
@[simp] theorem endWrite_irqHeld (s : State) : (endWrite s).irqHeld = s.irqHeld := rfl
@[simp] theorem endWrite_freeIx (s : State) : (endWrite s).freeIx = s.freeIx := rfl
@[simp] theorem endWrite_env (s : State) : (endWrite s).env = s.env := rfl

@[simp] theorem lapse_w (s : State) : (lapse s).w = s.w := rfl
@[simp] theorem lapse_pc (s : State) : (lapse s).pc = s.pc := rfl
@[simp] theorem lapse_stk (s : State) : (lapse s).stk = s.stk := rfl
@[simp] theorem lapse_sp (s : State) : (lapse s).sp = s.sp := rfl
@[simp] theorem lapse_status (s : State) : (lapse s).status = s.status := rfl
@[simp] theorem lapse_fsr (s : State) : (lapse s).fsr = s.fsr := rfl
@[simp] theorem lapse_pclath (s : State) : (lapse s).pclath = s.pclath := rfl
@[simp] theorem lapse_ram (s : State) : (lapse s).ram = s.ram := rfl
@[simp] theorem lapse_prog (s : State) : (lapse s).prog = s.prog := rfl
@[simp] theorem lapse_sleeping (s : State) : (lapse s).sleeping = s.sleeping := rfl
@[simp] theorem lapse_prefetched (s : State) : (lapse s).prefetched = s.prefetched := rfl
@[simp] theorem lapse_intcon (s : State) : (lapse s).intcon = s.intcon := rfl
@[simp] theorem lapse_pir1 (s : State) : (lapse s).pir1 = s.pir1 := rfl
@[simp] theorem lapse_pie1 (s : State) : (lapse s).pie1 = s.pie1 := rfl
@[simp] theorem lapse_option (s : State) : (lapse s).option = s.option := rfl
@[simp] theorem lapse_pcon (s : State) : (lapse s).pcon = s.pcon := rfl
@[simp] theorem lapse_wdt (s : State) : (lapse s).wdt = s.wdt := rfl
@[simp] theorem lapse_t0 (s : State) : (lapse s).t0 = s.t0 := rfl
@[simp] theorem lapse_t1 (s : State) : (lapse s).t1 = s.t1 := rfl
@[simp] theorem lapse_t2 (s : State) : (lapse s).t2 = s.t2 := rfl
@[simp] theorem lapse_ccp (s : State) : (lapse s).ccp = s.ccp := rfl
@[simp] theorem lapse_usart (s : State) : (lapse s).usart = s.usart := rfl
@[simp] theorem lapse_cmp (s : State) : (lapse s).cmp = s.cmp := rfl
@[simp] theorem lapse_ee (s : State) : (lapse s).ee = s.ee := rfl
@[simp] theorem lapse_io (s : State) : (lapse s).io = s.io := rfl
@[simp] theorem lapse_cycles (s : State) : (lapse s).cycles = s.cycles := rfl
@[simp] theorem lapse_rmw (s : State) : (lapse s).rmw = s.rmw := rfl
@[simp] theorem lapse_irqHeld (s : State) : (lapse s).irqHeld = s.irqHeld &&& requests s := rfl
@[simp] theorem lapse_freeIx (s : State) : (lapse s).freeIx = s.freeIx := rfl
@[simp] theorem lapse_env (s : State) : (lapse s).env = s.env := rfl

@[simp] theorem remember_w (a b : Byte) (clk : Bool) (s : State) : (remember a b clk s).w = s.w := rfl
@[simp] theorem remember_pc (a b : Byte) (clk : Bool) (s : State) : (remember a b clk s).pc = s.pc := rfl
@[simp] theorem remember_stk (a b : Byte) (clk : Bool) (s : State) : (remember a b clk s).stk = s.stk := rfl
@[simp] theorem remember_sp (a b : Byte) (clk : Bool) (s : State) : (remember a b clk s).sp = s.sp := rfl
@[simp] theorem remember_status (a b : Byte) (clk : Bool) (s : State) : (remember a b clk s).status = s.status := rfl
@[simp] theorem remember_fsr (a b : Byte) (clk : Bool) (s : State) : (remember a b clk s).fsr = s.fsr := rfl
@[simp] theorem remember_pclath (a b : Byte) (clk : Bool) (s : State) : (remember a b clk s).pclath = s.pclath := rfl
@[simp] theorem remember_ram (a b : Byte) (clk : Bool) (s : State) : (remember a b clk s).ram = s.ram := rfl
@[simp] theorem remember_prog (a b : Byte) (clk : Bool) (s : State) : (remember a b clk s).prog = s.prog := rfl
@[simp] theorem remember_sleeping (a b : Byte) (clk : Bool) (s : State) : (remember a b clk s).sleeping = s.sleeping := rfl
@[simp] theorem remember_prefetched (a b : Byte) (clk : Bool) (s : State) : (remember a b clk s).prefetched = s.prefetched := rfl
@[simp] theorem remember_intcon (a b : Byte) (clk : Bool) (s : State) : (remember a b clk s).intcon = s.intcon := rfl
@[simp] theorem remember_pir1 (a b : Byte) (clk : Bool) (s : State) : (remember a b clk s).pir1 = s.pir1 := rfl
@[simp] theorem remember_pie1 (a b : Byte) (clk : Bool) (s : State) : (remember a b clk s).pie1 = s.pie1 := rfl
@[simp] theorem remember_option (a b : Byte) (clk : Bool) (s : State) : (remember a b clk s).option = s.option := rfl
@[simp] theorem remember_pcon (a b : Byte) (clk : Bool) (s : State) : (remember a b clk s).pcon = s.pcon := rfl
@[simp] theorem remember_wdt (a b : Byte) (clk : Bool) (s : State) : (remember a b clk s).wdt = s.wdt := rfl
@[simp] theorem remember_t0 (a b : Byte) (clk : Bool) (s : State) : (remember a b clk s).t0 = s.t0 := rfl
@[simp] theorem remember_t1 (a b : Byte) (clk : Bool) (s : State) : (remember a b clk s).t1 = s.t1 := rfl
@[simp] theorem remember_t2 (a b : Byte) (clk : Bool) (s : State) : (remember a b clk s).t2 = s.t2 := rfl
@[simp] theorem remember_ccp (a b : Byte) (clk : Bool) (s : State) : (remember a b clk s).ccp = s.ccp := rfl
@[simp] theorem remember_usart (a b : Byte) (clk : Bool) (s : State) : (remember a b clk s).usart = s.usart := rfl
@[simp] theorem remember_cmp (a b : Byte) (clk : Bool) (s : State) : (remember a b clk s).cmp = s.cmp := rfl
@[simp] theorem remember_ee (a b : Byte) (clk : Bool) (s : State) : (remember a b clk s).ee = s.ee := rfl
@[simp] theorem remember_io (a b : Byte) (clk : Bool) (s : State) : (remember a b clk s).io = { s.io with seenA := a, seenB := b, seenClk := clk } := rfl
@[simp] theorem remember_cycles (a b : Byte) (clk : Bool) (s : State) : (remember a b clk s).cycles = s.cycles := rfl
@[simp] theorem remember_rmw (a b : Byte) (clk : Bool) (s : State) : (remember a b clk s).rmw = s.rmw := rfl
@[simp] theorem remember_irqHeld (a b : Byte) (clk : Bool) (s : State) : (remember a b clk s).irqHeld = s.irqHeld := rfl
@[simp] theorem remember_freeIx (a b : Byte) (clk : Bool) (s : State) : (remember a b clk s).freeIx = s.freeIx := rfl
@[simp] theorem remember_env (a b : Byte) (clk : Bool) (s : State) : (remember a b clk s).env = s.env := rfl

@[simp] theorem interruptEntry_w (s : State) : (interruptEntry s).w = s.w := rfl
@[simp] theorem interruptEntry_pc (s : State) : (interruptEntry s).pc = Config.intVector := rfl
@[simp] theorem interruptEntry_stk (s : State) : (interruptEntry s).stk = s.stk.set s.sp.toNat s.pc s.sp.isLt := rfl
@[simp] theorem interruptEntry_sp (s : State) : (interruptEntry s).sp = s.sp + 1 := rfl
@[simp] theorem interruptEntry_status (s : State) : (interruptEntry s).status = s.status := rfl
@[simp] theorem interruptEntry_fsr (s : State) : (interruptEntry s).fsr = s.fsr := rfl
@[simp] theorem interruptEntry_pclath (s : State) : (interruptEntry s).pclath = s.pclath := rfl
@[simp] theorem interruptEntry_ram (s : State) : (interruptEntry s).ram = s.ram := rfl
@[simp] theorem interruptEntry_prog (s : State) : (interruptEntry s).prog = s.prog := rfl
@[simp] theorem interruptEntry_sleeping (s : State) : (interruptEntry s).sleeping = s.sleeping := rfl
@[simp] theorem interruptEntry_prefetched (s : State) : (interruptEntry s).prefetched = s.prefetched := rfl
@[simp] theorem interruptEntry_intcon (s : State) : (interruptEntry s).intcon = setBit s.intcon 7 false := rfl
@[simp] theorem interruptEntry_pir1 (s : State) : (interruptEntry s).pir1 = s.pir1 := rfl
@[simp] theorem interruptEntry_pie1 (s : State) : (interruptEntry s).pie1 = s.pie1 := rfl
@[simp] theorem interruptEntry_option (s : State) : (interruptEntry s).option = s.option := rfl
@[simp] theorem interruptEntry_pcon (s : State) : (interruptEntry s).pcon = s.pcon := rfl
@[simp] theorem interruptEntry_wdt (s : State) : (interruptEntry s).wdt = s.wdt := rfl
@[simp] theorem interruptEntry_t0 (s : State) : (interruptEntry s).t0 = s.t0 := rfl
@[simp] theorem interruptEntry_t1 (s : State) : (interruptEntry s).t1 = s.t1 := rfl
@[simp] theorem interruptEntry_t2 (s : State) : (interruptEntry s).t2 = s.t2 := rfl
@[simp] theorem interruptEntry_ccp (s : State) : (interruptEntry s).ccp = s.ccp := rfl
@[simp] theorem interruptEntry_usart (s : State) : (interruptEntry s).usart = s.usart := rfl
@[simp] theorem interruptEntry_cmp (s : State) : (interruptEntry s).cmp = s.cmp := rfl
@[simp] theorem interruptEntry_ee (s : State) : (interruptEntry s).ee = { s.ee with unlock := .idle } := rfl
@[simp] theorem interruptEntry_io (s : State) : (interruptEntry s).io = s.io := rfl
@[simp] theorem interruptEntry_cycles (s : State) : (interruptEntry s).cycles = 2 := rfl
@[simp] theorem interruptEntry_rmw (s : State) : (interruptEntry s).rmw = s.rmw := rfl
@[simp] theorem interruptEntry_irqHeld (s : State) : (interruptEntry s).irqHeld = s.irqHeld := rfl
@[simp] theorem interruptEntry_freeIx (s : State) : (interruptEntry s).freeIx = s.freeIx := rfl
@[simp] theorem interruptEntry_env (s : State) : (interruptEntry s).env = s.env := rfl

@[simp] theorem interruptReturn_w (s : State) : (interruptReturn s).w = s.w := rfl
@[simp] theorem interruptReturn_pc (s : State) : (interruptReturn s).pc = tos s := rfl
@[simp] theorem interruptReturn_stk (s : State) : (interruptReturn s).stk = s.stk := rfl
@[simp] theorem interruptReturn_sp (s : State) : (interruptReturn s).sp = s.sp - 1 := rfl
@[simp] theorem interruptReturn_status (s : State) : (interruptReturn s).status = s.status := rfl
@[simp] theorem interruptReturn_fsr (s : State) : (interruptReturn s).fsr = s.fsr := rfl
@[simp] theorem interruptReturn_pclath (s : State) : (interruptReturn s).pclath = s.pclath := rfl
@[simp] theorem interruptReturn_ram (s : State) : (interruptReturn s).ram = s.ram := rfl
@[simp] theorem interruptReturn_prog (s : State) : (interruptReturn s).prog = s.prog := rfl
@[simp] theorem interruptReturn_sleeping (s : State) : (interruptReturn s).sleeping = s.sleeping := rfl
@[simp] theorem interruptReturn_prefetched (s : State) : (interruptReturn s).prefetched = s.prefetched := rfl
@[simp] theorem interruptReturn_intcon (s : State) : (interruptReturn s).intcon = setBit s.intcon 7 true := rfl
@[simp] theorem interruptReturn_pir1 (s : State) : (interruptReturn s).pir1 = s.pir1 := rfl
@[simp] theorem interruptReturn_pie1 (s : State) : (interruptReturn s).pie1 = s.pie1 := rfl
@[simp] theorem interruptReturn_option (s : State) : (interruptReturn s).option = s.option := rfl
@[simp] theorem interruptReturn_pcon (s : State) : (interruptReturn s).pcon = s.pcon := rfl
@[simp] theorem interruptReturn_wdt (s : State) : (interruptReturn s).wdt = s.wdt := rfl
@[simp] theorem interruptReturn_t0 (s : State) : (interruptReturn s).t0 = s.t0 := rfl
@[simp] theorem interruptReturn_t1 (s : State) : (interruptReturn s).t1 = s.t1 := rfl
@[simp] theorem interruptReturn_t2 (s : State) : (interruptReturn s).t2 = s.t2 := rfl
@[simp] theorem interruptReturn_ccp (s : State) : (interruptReturn s).ccp = s.ccp := rfl
@[simp] theorem interruptReturn_usart (s : State) : (interruptReturn s).usart = s.usart := rfl
@[simp] theorem interruptReturn_cmp (s : State) : (interruptReturn s).cmp = s.cmp := rfl
@[simp] theorem interruptReturn_ee (s : State) : (interruptReturn s).ee = s.ee := rfl
@[simp] theorem interruptReturn_io (s : State) : (interruptReturn s).io = s.io := rfl
@[simp] theorem interruptReturn_cycles (s : State) : (interruptReturn s).cycles = 2 := rfl
@[simp] theorem interruptReturn_rmw (s : State) : (interruptReturn s).rmw = s.rmw := rfl
@[simp] theorem interruptReturn_irqHeld (s : State) : (interruptReturn s).irqHeld = s.irqHeld := rfl
@[simp] theorem interruptReturn_freeIx (s : State) : (interruptReturn s).freeIx = s.freeIx := rfl
@[simp] theorem interruptReturn_env (s : State) : (interruptReturn s).env = s.env := rfl

@[simp] theorem subroutineReturn_w (s : State) : (subroutineReturn s).w = s.w := rfl
@[simp] theorem subroutineReturn_pc (s : State) : (subroutineReturn s).pc = tos s := rfl
@[simp] theorem subroutineReturn_stk (s : State) : (subroutineReturn s).stk = s.stk := rfl
@[simp] theorem subroutineReturn_sp (s : State) : (subroutineReturn s).sp = s.sp - 1 := rfl
@[simp] theorem subroutineReturn_status (s : State) : (subroutineReturn s).status = s.status := rfl
@[simp] theorem subroutineReturn_fsr (s : State) : (subroutineReturn s).fsr = s.fsr := rfl
@[simp] theorem subroutineReturn_pclath (s : State) : (subroutineReturn s).pclath = s.pclath := rfl
@[simp] theorem subroutineReturn_ram (s : State) : (subroutineReturn s).ram = s.ram := rfl
@[simp] theorem subroutineReturn_prog (s : State) : (subroutineReturn s).prog = s.prog := rfl
@[simp] theorem subroutineReturn_sleeping (s : State) : (subroutineReturn s).sleeping = s.sleeping := rfl
@[simp] theorem subroutineReturn_prefetched (s : State) : (subroutineReturn s).prefetched = s.prefetched := rfl
@[simp] theorem subroutineReturn_intcon (s : State) : (subroutineReturn s).intcon = s.intcon := rfl
@[simp] theorem subroutineReturn_pir1 (s : State) : (subroutineReturn s).pir1 = s.pir1 := rfl
@[simp] theorem subroutineReturn_pie1 (s : State) : (subroutineReturn s).pie1 = s.pie1 := rfl
@[simp] theorem subroutineReturn_option (s : State) : (subroutineReturn s).option = s.option := rfl
@[simp] theorem subroutineReturn_pcon (s : State) : (subroutineReturn s).pcon = s.pcon := rfl
@[simp] theorem subroutineReturn_wdt (s : State) : (subroutineReturn s).wdt = s.wdt := rfl
@[simp] theorem subroutineReturn_t0 (s : State) : (subroutineReturn s).t0 = s.t0 := rfl
@[simp] theorem subroutineReturn_t1 (s : State) : (subroutineReturn s).t1 = s.t1 := rfl
@[simp] theorem subroutineReturn_t2 (s : State) : (subroutineReturn s).t2 = s.t2 := rfl
@[simp] theorem subroutineReturn_ccp (s : State) : (subroutineReturn s).ccp = s.ccp := rfl
@[simp] theorem subroutineReturn_usart (s : State) : (subroutineReturn s).usart = s.usart := rfl
@[simp] theorem subroutineReturn_cmp (s : State) : (subroutineReturn s).cmp = s.cmp := rfl
@[simp] theorem subroutineReturn_ee (s : State) : (subroutineReturn s).ee = s.ee := rfl
@[simp] theorem subroutineReturn_io (s : State) : (subroutineReturn s).io = s.io := rfl
@[simp] theorem subroutineReturn_cycles (s : State) : (subroutineReturn s).cycles = 2 := rfl
@[simp] theorem subroutineReturn_rmw (s : State) : (subroutineReturn s).rmw = s.rmw := rfl
@[simp] theorem subroutineReturn_irqHeld (s : State) : (subroutineReturn s).irqHeld = s.irqHeld := rfl
@[simp] theorem subroutineReturn_freeIx (s : State) : (subroutineReturn s).freeIx = s.freeIx := rfl
@[simp] theorem subroutineReturn_env (s : State) : (subroutineReturn s).env = s.env := rfl

end Sys2Proof.Machine
end

