-- ==== Sys2Proof/Laws/Ops.lean ====
section
/-! SUPPORT. What the shared operations over registers leave alone: flags raised by hardware, reads, writes, STATUS; and when
an interrupt is requested. -/

namespace Sys2Proof.Machine

/-! A raised flag of INTCON changes INTCON and, in a race, the draws -/

@[simp] theorem raiseIntcon_w (m : Byte) (s : State) : (raiseIntcon m s).w = s.w := by
  unfold raiseIntcon; split <;> rfl

@[simp] theorem raiseIntcon_pc (m : Byte) (s : State) : (raiseIntcon m s).pc = s.pc := by
  unfold raiseIntcon; split <;> rfl

@[simp] theorem raiseIntcon_stk (m : Byte) (s : State) : (raiseIntcon m s).stk = s.stk := by
  unfold raiseIntcon; split <;> rfl

@[simp] theorem raiseIntcon_sp (m : Byte) (s : State) : (raiseIntcon m s).sp = s.sp := by
  unfold raiseIntcon; split <;> rfl

@[simp] theorem raiseIntcon_status (m : Byte) (s : State) : (raiseIntcon m s).status = s.status := by
  unfold raiseIntcon; split <;> rfl

@[simp] theorem raiseIntcon_fsr (m : Byte) (s : State) : (raiseIntcon m s).fsr = s.fsr := by
  unfold raiseIntcon; split <;> rfl

@[simp] theorem raiseIntcon_pclath (m : Byte) (s : State) : (raiseIntcon m s).pclath = s.pclath := by
  unfold raiseIntcon; split <;> rfl

@[simp] theorem raiseIntcon_ram (m : Byte) (s : State) : (raiseIntcon m s).ram = s.ram := by
  unfold raiseIntcon; split <;> rfl

@[simp] theorem raiseIntcon_prog (m : Byte) (s : State) : (raiseIntcon m s).prog = s.prog := by
  unfold raiseIntcon; split <;> rfl

@[simp] theorem raiseIntcon_sleeping (m : Byte) (s : State) : (raiseIntcon m s).sleeping = s.sleeping := by
  unfold raiseIntcon; split <;> rfl

@[simp] theorem raiseIntcon_prefetched (m : Byte) (s : State) : (raiseIntcon m s).prefetched = s.prefetched := by
  unfold raiseIntcon; split <;> rfl

@[simp] theorem raiseIntcon_pir1 (m : Byte) (s : State) : (raiseIntcon m s).pir1 = s.pir1 := by
  unfold raiseIntcon; split <;> rfl

@[simp] theorem raiseIntcon_pie1 (m : Byte) (s : State) : (raiseIntcon m s).pie1 = s.pie1 := by
  unfold raiseIntcon; split <;> rfl

@[simp] theorem raiseIntcon_option (m : Byte) (s : State) : (raiseIntcon m s).option = s.option := by
  unfold raiseIntcon; split <;> rfl

@[simp] theorem raiseIntcon_pcon (m : Byte) (s : State) : (raiseIntcon m s).pcon = s.pcon := by
  unfold raiseIntcon; split <;> rfl

@[simp] theorem raiseIntcon_wdt (m : Byte) (s : State) : (raiseIntcon m s).wdt = s.wdt := by
  unfold raiseIntcon; split <;> rfl

@[simp] theorem raiseIntcon_t0 (m : Byte) (s : State) : (raiseIntcon m s).t0 = s.t0 := by
  unfold raiseIntcon; split <;> rfl

@[simp] theorem raiseIntcon_t1 (m : Byte) (s : State) : (raiseIntcon m s).t1 = s.t1 := by
  unfold raiseIntcon; split <;> rfl

@[simp] theorem raiseIntcon_t2 (m : Byte) (s : State) : (raiseIntcon m s).t2 = s.t2 := by
  unfold raiseIntcon; split <;> rfl

@[simp] theorem raiseIntcon_ccp (m : Byte) (s : State) : (raiseIntcon m s).ccp = s.ccp := by
  unfold raiseIntcon; split <;> rfl

@[simp] theorem raiseIntcon_usart (m : Byte) (s : State) : (raiseIntcon m s).usart = s.usart := by
  unfold raiseIntcon; split <;> rfl

@[simp] theorem raiseIntcon_cmp (m : Byte) (s : State) : (raiseIntcon m s).cmp = s.cmp := by
  unfold raiseIntcon; split <;> rfl

@[simp] theorem raiseIntcon_ee (m : Byte) (s : State) : (raiseIntcon m s).ee = s.ee := by
  unfold raiseIntcon; split <;> rfl

@[simp] theorem raiseIntcon_io (m : Byte) (s : State) : (raiseIntcon m s).io = s.io := by
  unfold raiseIntcon; split <;> rfl

@[simp] theorem raiseIntcon_cycles (m : Byte) (s : State) : (raiseIntcon m s).cycles = s.cycles := by
  unfold raiseIntcon; split <;> rfl

@[simp] theorem raiseIntcon_rmw (m : Byte) (s : State) : (raiseIntcon m s).rmw = s.rmw := by
  unfold raiseIntcon; split <;> rfl

@[simp] theorem raiseIntcon_irqHeld (m : Byte) (s : State) : (raiseIntcon m s).irqHeld = s.irqHeld := by
  unfold raiseIntcon; split <;> rfl

@[simp] theorem raiseIntcon_env (m : Byte) (s : State) : (raiseIntcon m s).env = s.env := by
  unfold raiseIntcon; split <;> rfl

/-! A raised flag of PIR1 changes PIR1 and, in a race, the draws -/

@[simp] theorem raisePir1_w (m : Byte) (s : State) : (raisePir1 m s).w = s.w := by
  unfold raisePir1; split <;> rfl

@[simp] theorem raisePir1_pc (m : Byte) (s : State) : (raisePir1 m s).pc = s.pc := by
  unfold raisePir1; split <;> rfl

@[simp] theorem raisePir1_stk (m : Byte) (s : State) : (raisePir1 m s).stk = s.stk := by
  unfold raisePir1; split <;> rfl

@[simp] theorem raisePir1_sp (m : Byte) (s : State) : (raisePir1 m s).sp = s.sp := by
  unfold raisePir1; split <;> rfl

@[simp] theorem raisePir1_status (m : Byte) (s : State) : (raisePir1 m s).status = s.status := by
  unfold raisePir1; split <;> rfl

@[simp] theorem raisePir1_fsr (m : Byte) (s : State) : (raisePir1 m s).fsr = s.fsr := by
  unfold raisePir1; split <;> rfl

@[simp] theorem raisePir1_pclath (m : Byte) (s : State) : (raisePir1 m s).pclath = s.pclath := by
  unfold raisePir1; split <;> rfl

@[simp] theorem raisePir1_ram (m : Byte) (s : State) : (raisePir1 m s).ram = s.ram := by
  unfold raisePir1; split <;> rfl

@[simp] theorem raisePir1_prog (m : Byte) (s : State) : (raisePir1 m s).prog = s.prog := by
  unfold raisePir1; split <;> rfl

@[simp] theorem raisePir1_sleeping (m : Byte) (s : State) : (raisePir1 m s).sleeping = s.sleeping := by
  unfold raisePir1; split <;> rfl

@[simp] theorem raisePir1_prefetched (m : Byte) (s : State) : (raisePir1 m s).prefetched = s.prefetched := by
  unfold raisePir1; split <;> rfl

@[simp] theorem raisePir1_intcon (m : Byte) (s : State) : (raisePir1 m s).intcon = s.intcon := by
  unfold raisePir1; split <;> rfl

@[simp] theorem raisePir1_pie1 (m : Byte) (s : State) : (raisePir1 m s).pie1 = s.pie1 := by
  unfold raisePir1; split <;> rfl

@[simp] theorem raisePir1_option (m : Byte) (s : State) : (raisePir1 m s).option = s.option := by
  unfold raisePir1; split <;> rfl

@[simp] theorem raisePir1_pcon (m : Byte) (s : State) : (raisePir1 m s).pcon = s.pcon := by
  unfold raisePir1; split <;> rfl

@[simp] theorem raisePir1_wdt (m : Byte) (s : State) : (raisePir1 m s).wdt = s.wdt := by
  unfold raisePir1; split <;> rfl

@[simp] theorem raisePir1_t0 (m : Byte) (s : State) : (raisePir1 m s).t0 = s.t0 := by
  unfold raisePir1; split <;> rfl

@[simp] theorem raisePir1_t1 (m : Byte) (s : State) : (raisePir1 m s).t1 = s.t1 := by
  unfold raisePir1; split <;> rfl

@[simp] theorem raisePir1_t2 (m : Byte) (s : State) : (raisePir1 m s).t2 = s.t2 := by
  unfold raisePir1; split <;> rfl

@[simp] theorem raisePir1_ccp (m : Byte) (s : State) : (raisePir1 m s).ccp = s.ccp := by
  unfold raisePir1; split <;> rfl

@[simp] theorem raisePir1_usart (m : Byte) (s : State) : (raisePir1 m s).usart = s.usart := by
  unfold raisePir1; split <;> rfl

@[simp] theorem raisePir1_cmp (m : Byte) (s : State) : (raisePir1 m s).cmp = s.cmp := by
  unfold raisePir1; split <;> rfl

@[simp] theorem raisePir1_ee (m : Byte) (s : State) : (raisePir1 m s).ee = s.ee := by
  unfold raisePir1; split <;> rfl

@[simp] theorem raisePir1_io (m : Byte) (s : State) : (raisePir1 m s).io = s.io := by
  unfold raisePir1; split <;> rfl

@[simp] theorem raisePir1_cycles (m : Byte) (s : State) : (raisePir1 m s).cycles = s.cycles := by
  unfold raisePir1; split <;> rfl

@[simp] theorem raisePir1_rmw (m : Byte) (s : State) : (raisePir1 m s).rmw = s.rmw := by
  unfold raisePir1; split <;> rfl

@[simp] theorem raisePir1_irqHeld (m : Byte) (s : State) : (raisePir1 m s).irqHeld = s.irqHeld := by
  unfold raisePir1; split <;> rfl

@[simp] theorem raisePir1_env (m : Byte) (s : State) : (raisePir1 m s).env = s.env := by
  unfold raisePir1; split <;> rfl

/-! A Timer0 increment changes TMR0 and raises T0IF -/

@[simp] theorem tmr0Tick_w (s : State) : (tmr0Tick s).w = s.w := by
  unfold tmr0Tick; split <;> simp

@[simp] theorem tmr0Tick_pc (s : State) : (tmr0Tick s).pc = s.pc := by
  unfold tmr0Tick; split <;> simp

@[simp] theorem tmr0Tick_stk (s : State) : (tmr0Tick s).stk = s.stk := by
  unfold tmr0Tick; split <;> simp

@[simp] theorem tmr0Tick_sp (s : State) : (tmr0Tick s).sp = s.sp := by
  unfold tmr0Tick; split <;> simp

@[simp] theorem tmr0Tick_status (s : State) : (tmr0Tick s).status = s.status := by
  unfold tmr0Tick; split <;> simp

@[simp] theorem tmr0Tick_fsr (s : State) : (tmr0Tick s).fsr = s.fsr := by
  unfold tmr0Tick; split <;> simp

@[simp] theorem tmr0Tick_pclath (s : State) : (tmr0Tick s).pclath = s.pclath := by
  unfold tmr0Tick; split <;> simp

@[simp] theorem tmr0Tick_ram (s : State) : (tmr0Tick s).ram = s.ram := by
  unfold tmr0Tick; split <;> simp

@[simp] theorem tmr0Tick_prog (s : State) : (tmr0Tick s).prog = s.prog := by
  unfold tmr0Tick; split <;> simp

@[simp] theorem tmr0Tick_sleeping (s : State) : (tmr0Tick s).sleeping = s.sleeping := by
  unfold tmr0Tick; split <;> simp

@[simp] theorem tmr0Tick_prefetched (s : State) : (tmr0Tick s).prefetched = s.prefetched := by
  unfold tmr0Tick; split <;> simp

@[simp] theorem tmr0Tick_pir1 (s : State) : (tmr0Tick s).pir1 = s.pir1 := by
  unfold tmr0Tick; split <;> simp

@[simp] theorem tmr0Tick_pie1 (s : State) : (tmr0Tick s).pie1 = s.pie1 := by
  unfold tmr0Tick; split <;> simp

@[simp] theorem tmr0Tick_option (s : State) : (tmr0Tick s).option = s.option := by
  unfold tmr0Tick; split <;> simp

@[simp] theorem tmr0Tick_pcon (s : State) : (tmr0Tick s).pcon = s.pcon := by
  unfold tmr0Tick; split <;> simp

@[simp] theorem tmr0Tick_wdt (s : State) : (tmr0Tick s).wdt = s.wdt := by
  unfold tmr0Tick; split <;> simp

@[simp] theorem tmr0Tick_t1 (s : State) : (tmr0Tick s).t1 = s.t1 := by
  unfold tmr0Tick; split <;> simp

@[simp] theorem tmr0Tick_t2 (s : State) : (tmr0Tick s).t2 = s.t2 := by
  unfold tmr0Tick; split <;> simp

@[simp] theorem tmr0Tick_ccp (s : State) : (tmr0Tick s).ccp = s.ccp := by
  unfold tmr0Tick; split <;> simp

@[simp] theorem tmr0Tick_usart (s : State) : (tmr0Tick s).usart = s.usart := by
  unfold tmr0Tick; split <;> simp

@[simp] theorem tmr0Tick_cmp (s : State) : (tmr0Tick s).cmp = s.cmp := by
  unfold tmr0Tick; split <;> simp

@[simp] theorem tmr0Tick_ee (s : State) : (tmr0Tick s).ee = s.ee := by
  unfold tmr0Tick; split <;> simp

@[simp] theorem tmr0Tick_io (s : State) : (tmr0Tick s).io = s.io := by
  unfold tmr0Tick; split <;> simp

@[simp] theorem tmr0Tick_cycles (s : State) : (tmr0Tick s).cycles = s.cycles := by
  unfold tmr0Tick; split <;> simp

@[simp] theorem tmr0Tick_rmw (s : State) : (tmr0Tick s).rmw = s.rmw := by
  unfold tmr0Tick; split <;> simp

@[simp] theorem tmr0Tick_irqHeld (s : State) : (tmr0Tick s).irqHeld = s.irqHeld := by
  unfold tmr0Tick; split <;> simp

@[simp] theorem tmr0Tick_env (s : State) : (tmr0Tick s).env = s.env := by
  unfold tmr0Tick; split <;> simp

/-! Flags reach STATUS alone; open flags are drawn -/

@[simp] theorem putFlags_w (u : FlagUpdate) (b : Bool) (s : State) : (putFlags u b s).w = s.w := by
  unfold putFlags; (split; · rfl); split <;> rfl

@[simp] theorem putFlags_pc (u : FlagUpdate) (b : Bool) (s : State) : (putFlags u b s).pc = s.pc := by
  unfold putFlags; (split; · rfl); split <;> rfl

@[simp] theorem putFlags_stk (u : FlagUpdate) (b : Bool) (s : State) : (putFlags u b s).stk = s.stk := by
  unfold putFlags; (split; · rfl); split <;> rfl

@[simp] theorem putFlags_sp (u : FlagUpdate) (b : Bool) (s : State) : (putFlags u b s).sp = s.sp := by
  unfold putFlags; (split; · rfl); split <;> rfl

@[simp] theorem putFlags_fsr (u : FlagUpdate) (b : Bool) (s : State) : (putFlags u b s).fsr = s.fsr := by
  unfold putFlags; (split; · rfl); split <;> rfl

@[simp] theorem putFlags_pclath (u : FlagUpdate) (b : Bool) (s : State) : (putFlags u b s).pclath = s.pclath := by
  unfold putFlags; (split; · rfl); split <;> rfl

@[simp] theorem putFlags_ram (u : FlagUpdate) (b : Bool) (s : State) : (putFlags u b s).ram = s.ram := by
  unfold putFlags; (split; · rfl); split <;> rfl

@[simp] theorem putFlags_prog (u : FlagUpdate) (b : Bool) (s : State) : (putFlags u b s).prog = s.prog := by
  unfold putFlags; (split; · rfl); split <;> rfl

@[simp] theorem putFlags_sleeping (u : FlagUpdate) (b : Bool) (s : State) : (putFlags u b s).sleeping = s.sleeping := by
  unfold putFlags; (split; · rfl); split <;> rfl

@[simp] theorem putFlags_prefetched (u : FlagUpdate) (b : Bool) (s : State) : (putFlags u b s).prefetched = s.prefetched := by
  unfold putFlags; (split; · rfl); split <;> rfl

@[simp] theorem putFlags_intcon (u : FlagUpdate) (b : Bool) (s : State) : (putFlags u b s).intcon = s.intcon := by
  unfold putFlags; (split; · rfl); split <;> rfl

@[simp] theorem putFlags_pir1 (u : FlagUpdate) (b : Bool) (s : State) : (putFlags u b s).pir1 = s.pir1 := by
  unfold putFlags; (split; · rfl); split <;> rfl

@[simp] theorem putFlags_pie1 (u : FlagUpdate) (b : Bool) (s : State) : (putFlags u b s).pie1 = s.pie1 := by
  unfold putFlags; (split; · rfl); split <;> rfl

@[simp] theorem putFlags_option (u : FlagUpdate) (b : Bool) (s : State) : (putFlags u b s).option = s.option := by
  unfold putFlags; (split; · rfl); split <;> rfl

@[simp] theorem putFlags_pcon (u : FlagUpdate) (b : Bool) (s : State) : (putFlags u b s).pcon = s.pcon := by
  unfold putFlags; (split; · rfl); split <;> rfl

@[simp] theorem putFlags_wdt (u : FlagUpdate) (b : Bool) (s : State) : (putFlags u b s).wdt = s.wdt := by
  unfold putFlags; (split; · rfl); split <;> rfl

@[simp] theorem putFlags_t0 (u : FlagUpdate) (b : Bool) (s : State) : (putFlags u b s).t0 = s.t0 := by
  unfold putFlags; (split; · rfl); split <;> rfl

@[simp] theorem putFlags_t1 (u : FlagUpdate) (b : Bool) (s : State) : (putFlags u b s).t1 = s.t1 := by
  unfold putFlags; (split; · rfl); split <;> rfl

@[simp] theorem putFlags_t2 (u : FlagUpdate) (b : Bool) (s : State) : (putFlags u b s).t2 = s.t2 := by
  unfold putFlags; (split; · rfl); split <;> rfl

@[simp] theorem putFlags_ccp (u : FlagUpdate) (b : Bool) (s : State) : (putFlags u b s).ccp = s.ccp := by
  unfold putFlags; (split; · rfl); split <;> rfl

@[simp] theorem putFlags_usart (u : FlagUpdate) (b : Bool) (s : State) : (putFlags u b s).usart = s.usart := by
  unfold putFlags; (split; · rfl); split <;> rfl

@[simp] theorem putFlags_cmp (u : FlagUpdate) (b : Bool) (s : State) : (putFlags u b s).cmp = s.cmp := by
  unfold putFlags; (split; · rfl); split <;> rfl

@[simp] theorem putFlags_ee (u : FlagUpdate) (b : Bool) (s : State) : (putFlags u b s).ee = s.ee := by
  unfold putFlags; (split; · rfl); split <;> rfl

@[simp] theorem putFlags_io (u : FlagUpdate) (b : Bool) (s : State) : (putFlags u b s).io = s.io := by
  unfold putFlags; (split; · rfl); split <;> rfl

@[simp] theorem putFlags_cycles (u : FlagUpdate) (b : Bool) (s : State) : (putFlags u b s).cycles = s.cycles := by
  unfold putFlags; (split; · rfl); split <;> rfl

@[simp] theorem putFlags_rmw (u : FlagUpdate) (b : Bool) (s : State) : (putFlags u b s).rmw = s.rmw := by
  unfold putFlags; (split; · rfl); split <;> rfl

@[simp] theorem putFlags_irqHeld (u : FlagUpdate) (b : Bool) (s : State) : (putFlags u b s).irqHeld = s.irqHeld := by
  unfold putFlags; (split; · rfl); split <;> rfl

@[simp] theorem putFlags_env (u : FlagUpdate) (b : Bool) (s : State) : (putFlags u b s).env = s.env := by
  unfold putFlags; (split; · rfl); split <;> rfl

/-! A read changes the receive buffer, the PORTB change latch or the comparators' last value -/

@[simp] theorem readEffect_w (r : Reg) (s : State) : (readEffect r s).w = s.w := by
  unfold readEffect; split <;> first | rfl | (split <;> rfl)

@[simp] theorem readEffect_pc (r : Reg) (s : State) : (readEffect r s).pc = s.pc := by
  unfold readEffect; split <;> first | rfl | (split <;> rfl)

@[simp] theorem readEffect_stk (r : Reg) (s : State) : (readEffect r s).stk = s.stk := by
  unfold readEffect; split <;> first | rfl | (split <;> rfl)

@[simp] theorem readEffect_sp (r : Reg) (s : State) : (readEffect r s).sp = s.sp := by
  unfold readEffect; split <;> first | rfl | (split <;> rfl)

@[simp] theorem readEffect_status (r : Reg) (s : State) : (readEffect r s).status = s.status := by
  unfold readEffect; split <;> first | rfl | (split <;> rfl)

@[simp] theorem readEffect_fsr (r : Reg) (s : State) : (readEffect r s).fsr = s.fsr := by
  unfold readEffect; split <;> first | rfl | (split <;> rfl)

@[simp] theorem readEffect_pclath (r : Reg) (s : State) : (readEffect r s).pclath = s.pclath := by
  unfold readEffect; split <;> first | rfl | (split <;> rfl)

@[simp] theorem readEffect_ram (r : Reg) (s : State) : (readEffect r s).ram = s.ram := by
  unfold readEffect; split <;> first | rfl | (split <;> rfl)

@[simp] theorem readEffect_prog (r : Reg) (s : State) : (readEffect r s).prog = s.prog := by
  unfold readEffect; split <;> first | rfl | (split <;> rfl)

@[simp] theorem readEffect_sleeping (r : Reg) (s : State) : (readEffect r s).sleeping = s.sleeping := by
  unfold readEffect; split <;> first | rfl | (split <;> rfl)

@[simp] theorem readEffect_prefetched (r : Reg) (s : State) : (readEffect r s).prefetched = s.prefetched := by
  unfold readEffect; split <;> first | rfl | (split <;> rfl)

@[simp] theorem readEffect_intcon (r : Reg) (s : State) : (readEffect r s).intcon = s.intcon := by
  unfold readEffect; split <;> first | rfl | (split <;> rfl)

@[simp] theorem readEffect_pir1 (r : Reg) (s : State) : (readEffect r s).pir1 = s.pir1 := by
  unfold readEffect; split <;> first | rfl | (split <;> rfl)

@[simp] theorem readEffect_pie1 (r : Reg) (s : State) : (readEffect r s).pie1 = s.pie1 := by
  unfold readEffect; split <;> first | rfl | (split <;> rfl)

@[simp] theorem readEffect_option (r : Reg) (s : State) : (readEffect r s).option = s.option := by
  unfold readEffect; split <;> first | rfl | (split <;> rfl)

@[simp] theorem readEffect_pcon (r : Reg) (s : State) : (readEffect r s).pcon = s.pcon := by
  unfold readEffect; split <;> first | rfl | (split <;> rfl)

@[simp] theorem readEffect_wdt (r : Reg) (s : State) : (readEffect r s).wdt = s.wdt := by
  unfold readEffect; split <;> first | rfl | (split <;> rfl)

@[simp] theorem readEffect_t0 (r : Reg) (s : State) : (readEffect r s).t0 = s.t0 := by
  unfold readEffect; split <;> first | rfl | (split <;> rfl)

@[simp] theorem readEffect_t1 (r : Reg) (s : State) : (readEffect r s).t1 = s.t1 := by
  unfold readEffect; split <;> first | rfl | (split <;> rfl)

@[simp] theorem readEffect_t2 (r : Reg) (s : State) : (readEffect r s).t2 = s.t2 := by
  unfold readEffect; split <;> first | rfl | (split <;> rfl)

@[simp] theorem readEffect_ccp (r : Reg) (s : State) : (readEffect r s).ccp = s.ccp := by
  unfold readEffect; split <;> first | rfl | (split <;> rfl)

@[simp] theorem readEffect_ee (r : Reg) (s : State) : (readEffect r s).ee = s.ee := by
  unfold readEffect; split <;> first | rfl | (split <;> rfl)

@[simp] theorem readEffect_cycles (r : Reg) (s : State) : (readEffect r s).cycles = s.cycles := by
  unfold readEffect; split <;> first | rfl | (split <;> rfl)

@[simp] theorem readEffect_rmw (r : Reg) (s : State) : (readEffect r s).rmw = s.rmw := by
  unfold readEffect; split <;> first | rfl | (split <;> rfl)

@[simp] theorem readEffect_irqHeld (r : Reg) (s : State) : (readEffect r s).irqHeld = s.irqHeld := by
  unfold readEffect; split <;> first | rfl | (split <;> rfl)

@[simp] theorem readEffect_env (r : Reg) (s : State) : (readEffect r s).env = s.env := by
  unfold readEffect; split <;> first | rfl | (split <;> rfl)

/-! An OPTION write changes OPTION; a spurious Timer0 increment may follow -/

@[simp] theorem writeOption_w (v : Byte) (s : State) : (writeOption v s).w = s.w := by
  unfold writeOption; (split; · split <;> simp); rfl

@[simp] theorem writeOption_pc (v : Byte) (s : State) : (writeOption v s).pc = s.pc := by
  unfold writeOption; (split; · split <;> simp); rfl

@[simp] theorem writeOption_stk (v : Byte) (s : State) : (writeOption v s).stk = s.stk := by
  unfold writeOption; (split; · split <;> simp); rfl

@[simp] theorem writeOption_sp (v : Byte) (s : State) : (writeOption v s).sp = s.sp := by
  unfold writeOption; (split; · split <;> simp); rfl

@[simp] theorem writeOption_status (v : Byte) (s : State) : (writeOption v s).status = s.status := by
  unfold writeOption; (split; · split <;> simp); rfl

@[simp] theorem writeOption_fsr (v : Byte) (s : State) : (writeOption v s).fsr = s.fsr := by
  unfold writeOption; (split; · split <;> simp); rfl

@[simp] theorem writeOption_pclath (v : Byte) (s : State) : (writeOption v s).pclath = s.pclath := by
  unfold writeOption; (split; · split <;> simp); rfl

@[simp] theorem writeOption_ram (v : Byte) (s : State) : (writeOption v s).ram = s.ram := by
  unfold writeOption; (split; · split <;> simp); rfl

@[simp] theorem writeOption_prog (v : Byte) (s : State) : (writeOption v s).prog = s.prog := by
  unfold writeOption; (split; · split <;> simp); rfl

@[simp] theorem writeOption_sleeping (v : Byte) (s : State) : (writeOption v s).sleeping = s.sleeping := by
  unfold writeOption; (split; · split <;> simp); rfl

@[simp] theorem writeOption_prefetched (v : Byte) (s : State) : (writeOption v s).prefetched = s.prefetched := by
  unfold writeOption; (split; · split <;> simp); rfl

@[simp] theorem writeOption_pir1 (v : Byte) (s : State) : (writeOption v s).pir1 = s.pir1 := by
  unfold writeOption; (split; · split <;> simp); rfl

@[simp] theorem writeOption_pie1 (v : Byte) (s : State) : (writeOption v s).pie1 = s.pie1 := by
  unfold writeOption; (split; · split <;> simp); rfl

@[simp] theorem writeOption_pcon (v : Byte) (s : State) : (writeOption v s).pcon = s.pcon := by
  unfold writeOption; (split; · split <;> simp); rfl

@[simp] theorem writeOption_wdt (v : Byte) (s : State) : (writeOption v s).wdt = s.wdt := by
  unfold writeOption; (split; · split <;> simp); rfl

@[simp] theorem writeOption_t1 (v : Byte) (s : State) : (writeOption v s).t1 = s.t1 := by
  unfold writeOption; (split; · split <;> simp); rfl

@[simp] theorem writeOption_t2 (v : Byte) (s : State) : (writeOption v s).t2 = s.t2 := by
  unfold writeOption; (split; · split <;> simp); rfl

@[simp] theorem writeOption_ccp (v : Byte) (s : State) : (writeOption v s).ccp = s.ccp := by
  unfold writeOption; (split; · split <;> simp); rfl

@[simp] theorem writeOption_usart (v : Byte) (s : State) : (writeOption v s).usart = s.usart := by
  unfold writeOption; (split; · split <;> simp); rfl

@[simp] theorem writeOption_cmp (v : Byte) (s : State) : (writeOption v s).cmp = s.cmp := by
  unfold writeOption; (split; · split <;> simp); rfl

@[simp] theorem writeOption_ee (v : Byte) (s : State) : (writeOption v s).ee = s.ee := by
  unfold writeOption; (split; · split <;> simp); rfl

@[simp] theorem writeOption_io (v : Byte) (s : State) : (writeOption v s).io = s.io := by
  unfold writeOption; (split; · split <;> simp); rfl

@[simp] theorem writeOption_cycles (v : Byte) (s : State) : (writeOption v s).cycles = s.cycles := by
  unfold writeOption; (split; · split <;> simp); rfl

@[simp] theorem writeOption_rmw (v : Byte) (s : State) : (writeOption v s).rmw = s.rmw := by
  unfold writeOption; (split; · split <;> simp); rfl

@[simp] theorem writeOption_irqHeld (v : Byte) (s : State) : (writeOption v s).irqHeld = s.irqHeld := by
  unfold writeOption; (split; · split <;> simp); rfl

@[simp] theorem writeOption_env (v : Byte) (s : State) : (writeOption v s).env = s.env := by
  unfold writeOption; (split; · split <;> simp); rfl

/-! An EECON1 write changes the EEPROM's registers -/

@[simp] theorem writeEecon1_w (v : Byte) (s : State) : (writeEecon1 v s).w = s.w := by
  unfold writeEecon1 eeRead eeStart; simp only; repeat' split
  all_goals rfl

@[simp] theorem writeEecon1_pc (v : Byte) (s : State) : (writeEecon1 v s).pc = s.pc := by
  unfold writeEecon1 eeRead eeStart; simp only; repeat' split
  all_goals rfl

@[simp] theorem writeEecon1_stk (v : Byte) (s : State) : (writeEecon1 v s).stk = s.stk := by
  unfold writeEecon1 eeRead eeStart; simp only; repeat' split
  all_goals rfl

@[simp] theorem writeEecon1_sp (v : Byte) (s : State) : (writeEecon1 v s).sp = s.sp := by
  unfold writeEecon1 eeRead eeStart; simp only; repeat' split
  all_goals rfl

@[simp] theorem writeEecon1_status (v : Byte) (s : State) : (writeEecon1 v s).status = s.status := by
  unfold writeEecon1 eeRead eeStart; simp only; repeat' split
  all_goals rfl

@[simp] theorem writeEecon1_fsr (v : Byte) (s : State) : (writeEecon1 v s).fsr = s.fsr := by
  unfold writeEecon1 eeRead eeStart; simp only; repeat' split
  all_goals rfl

@[simp] theorem writeEecon1_pclath (v : Byte) (s : State) : (writeEecon1 v s).pclath = s.pclath := by
  unfold writeEecon1 eeRead eeStart; simp only; repeat' split
  all_goals rfl

@[simp] theorem writeEecon1_ram (v : Byte) (s : State) : (writeEecon1 v s).ram = s.ram := by
  unfold writeEecon1 eeRead eeStart; simp only; repeat' split
  all_goals rfl

@[simp] theorem writeEecon1_prog (v : Byte) (s : State) : (writeEecon1 v s).prog = s.prog := by
  unfold writeEecon1 eeRead eeStart; simp only; repeat' split
  all_goals rfl

@[simp] theorem writeEecon1_sleeping (v : Byte) (s : State) : (writeEecon1 v s).sleeping = s.sleeping := by
  unfold writeEecon1 eeRead eeStart; simp only; repeat' split
  all_goals rfl

@[simp] theorem writeEecon1_prefetched (v : Byte) (s : State) : (writeEecon1 v s).prefetched = s.prefetched := by
  unfold writeEecon1 eeRead eeStart; simp only; repeat' split
  all_goals rfl

@[simp] theorem writeEecon1_intcon (v : Byte) (s : State) : (writeEecon1 v s).intcon = s.intcon := by
  unfold writeEecon1 eeRead eeStart; simp only; repeat' split
  all_goals rfl

@[simp] theorem writeEecon1_pir1 (v : Byte) (s : State) : (writeEecon1 v s).pir1 = s.pir1 := by
  unfold writeEecon1 eeRead eeStart; simp only; repeat' split
  all_goals rfl

@[simp] theorem writeEecon1_pie1 (v : Byte) (s : State) : (writeEecon1 v s).pie1 = s.pie1 := by
  unfold writeEecon1 eeRead eeStart; simp only; repeat' split
  all_goals rfl

@[simp] theorem writeEecon1_option (v : Byte) (s : State) : (writeEecon1 v s).option = s.option := by
  unfold writeEecon1 eeRead eeStart; simp only; repeat' split
  all_goals rfl

@[simp] theorem writeEecon1_pcon (v : Byte) (s : State) : (writeEecon1 v s).pcon = s.pcon := by
  unfold writeEecon1 eeRead eeStart; simp only; repeat' split
  all_goals rfl

@[simp] theorem writeEecon1_wdt (v : Byte) (s : State) : (writeEecon1 v s).wdt = s.wdt := by
  unfold writeEecon1 eeRead eeStart; simp only; repeat' split
  all_goals rfl

@[simp] theorem writeEecon1_t0 (v : Byte) (s : State) : (writeEecon1 v s).t0 = s.t0 := by
  unfold writeEecon1 eeRead eeStart; simp only; repeat' split
  all_goals rfl

@[simp] theorem writeEecon1_t1 (v : Byte) (s : State) : (writeEecon1 v s).t1 = s.t1 := by
  unfold writeEecon1 eeRead eeStart; simp only; repeat' split
  all_goals rfl

@[simp] theorem writeEecon1_t2 (v : Byte) (s : State) : (writeEecon1 v s).t2 = s.t2 := by
  unfold writeEecon1 eeRead eeStart; simp only; repeat' split
  all_goals rfl

@[simp] theorem writeEecon1_ccp (v : Byte) (s : State) : (writeEecon1 v s).ccp = s.ccp := by
  unfold writeEecon1 eeRead eeStart; simp only; repeat' split
  all_goals rfl

@[simp] theorem writeEecon1_usart (v : Byte) (s : State) : (writeEecon1 v s).usart = s.usart := by
  unfold writeEecon1 eeRead eeStart; simp only; repeat' split
  all_goals rfl

@[simp] theorem writeEecon1_cmp (v : Byte) (s : State) : (writeEecon1 v s).cmp = s.cmp := by
  unfold writeEecon1 eeRead eeStart; simp only; repeat' split
  all_goals rfl

@[simp] theorem writeEecon1_io (v : Byte) (s : State) : (writeEecon1 v s).io = s.io := by
  unfold writeEecon1 eeRead eeStart; simp only; repeat' split
  all_goals rfl

@[simp] theorem writeEecon1_cycles (v : Byte) (s : State) : (writeEecon1 v s).cycles = s.cycles := by
  unfold writeEecon1 eeRead eeStart; simp only; repeat' split
  all_goals rfl

@[simp] theorem writeEecon1_rmw (v : Byte) (s : State) : (writeEecon1 v s).rmw = s.rmw := by
  unfold writeEecon1 eeRead eeStart; simp only; repeat' split
  all_goals rfl

@[simp] theorem writeEecon1_irqHeld (v : Byte) (s : State) : (writeEecon1 v s).irqHeld = s.irqHeld := by
  unfold writeEecon1 eeRead eeStart; simp only; repeat' split
  all_goals rfl

@[simp] theorem writeEecon1_env (v : Byte) (s : State) : (writeEecon1 v s).env = s.env := by
  unfold writeEecon1 eeRead eeStart; simp only; repeat' split
  all_goals rfl

/-! A PORTB write changes the latch and, on a mismatch, draws what becomes of it -/

@[simp] theorem writePortb_w (v : Byte) (s : State) : (writePortb v s).w = s.w := by
  unfold writePortb; simp only; split <;> rfl

@[simp] theorem writePortb_pc (v : Byte) (s : State) : (writePortb v s).pc = s.pc := by
  unfold writePortb; simp only; split <;> rfl

@[simp] theorem writePortb_stk (v : Byte) (s : State) : (writePortb v s).stk = s.stk := by
  unfold writePortb; simp only; split <;> rfl

@[simp] theorem writePortb_sp (v : Byte) (s : State) : (writePortb v s).sp = s.sp := by
  unfold writePortb; simp only; split <;> rfl

@[simp] theorem writePortb_status (v : Byte) (s : State) : (writePortb v s).status = s.status := by
  unfold writePortb; simp only; split <;> rfl

@[simp] theorem writePortb_fsr (v : Byte) (s : State) : (writePortb v s).fsr = s.fsr := by
  unfold writePortb; simp only; split <;> rfl

@[simp] theorem writePortb_pclath (v : Byte) (s : State) : (writePortb v s).pclath = s.pclath := by
  unfold writePortb; simp only; split <;> rfl

@[simp] theorem writePortb_ram (v : Byte) (s : State) : (writePortb v s).ram = s.ram := by
  unfold writePortb; simp only; split <;> rfl

@[simp] theorem writePortb_prog (v : Byte) (s : State) : (writePortb v s).prog = s.prog := by
  unfold writePortb; simp only; split <;> rfl

@[simp] theorem writePortb_sleeping (v : Byte) (s : State) : (writePortb v s).sleeping = s.sleeping := by
  unfold writePortb; simp only; split <;> rfl

@[simp] theorem writePortb_prefetched (v : Byte) (s : State) : (writePortb v s).prefetched = s.prefetched := by
  unfold writePortb; simp only; split <;> rfl

@[simp] theorem writePortb_intcon (v : Byte) (s : State) : (writePortb v s).intcon = s.intcon := by
  unfold writePortb; simp only; split <;> rfl

@[simp] theorem writePortb_pir1 (v : Byte) (s : State) : (writePortb v s).pir1 = s.pir1 := by
  unfold writePortb; simp only; split <;> rfl

@[simp] theorem writePortb_pie1 (v : Byte) (s : State) : (writePortb v s).pie1 = s.pie1 := by
  unfold writePortb; simp only; split <;> rfl

@[simp] theorem writePortb_option (v : Byte) (s : State) : (writePortb v s).option = s.option := by
  unfold writePortb; simp only; split <;> rfl

@[simp] theorem writePortb_pcon (v : Byte) (s : State) : (writePortb v s).pcon = s.pcon := by
  unfold writePortb; simp only; split <;> rfl

@[simp] theorem writePortb_wdt (v : Byte) (s : State) : (writePortb v s).wdt = s.wdt := by
  unfold writePortb; simp only; split <;> rfl

@[simp] theorem writePortb_t0 (v : Byte) (s : State) : (writePortb v s).t0 = s.t0 := by
  unfold writePortb; simp only; split <;> rfl

@[simp] theorem writePortb_t1 (v : Byte) (s : State) : (writePortb v s).t1 = s.t1 := by
  unfold writePortb; simp only; split <;> rfl

@[simp] theorem writePortb_t2 (v : Byte) (s : State) : (writePortb v s).t2 = s.t2 := by
  unfold writePortb; simp only; split <;> rfl

@[simp] theorem writePortb_ccp (v : Byte) (s : State) : (writePortb v s).ccp = s.ccp := by
  unfold writePortb; simp only; split <;> rfl

@[simp] theorem writePortb_usart (v : Byte) (s : State) : (writePortb v s).usart = s.usart := by
  unfold writePortb; simp only; split <;> rfl

@[simp] theorem writePortb_cmp (v : Byte) (s : State) : (writePortb v s).cmp = s.cmp := by
  unfold writePortb; simp only; split <;> rfl

@[simp] theorem writePortb_ee (v : Byte) (s : State) : (writePortb v s).ee = s.ee := by
  unfold writePortb; simp only; split <;> rfl

@[simp] theorem writePortb_cycles (v : Byte) (s : State) : (writePortb v s).cycles = s.cycles := by
  unfold writePortb; simp only; split <;> rfl

@[simp] theorem writePortb_rmw (v : Byte) (s : State) : (writePortb v s).rmw = s.rmw := by
  unfold writePortb; simp only; split <;> rfl

@[simp] theorem writePortb_irqHeld (v : Byte) (s : State) : (writePortb v s).irqHeld = s.irqHeld := by
  unfold writePortb; simp only; split <;> rfl

@[simp] theorem writePortb_env (v : Byte) (s : State) : (writePortb v s).env = s.env := by
  unfold writePortb; simp only; split <;> rfl

@[simp] theorem writePortb_latB (v : Byte) (s : State) : (writePortb v s).io.latB = v := by
  unfold writePortb; simp only; split <;> rfl

/-! No register write changes W, the return stack, the program or the core's own flags -/

@[simp] theorem memWrite_w (r : Reg) (v : Byte) (s : State) : (memWrite r v s).w = s.w := by
  cases r <;> simp only [memWrite] <;> first | rfl | (split <;> rfl) | simp

@[simp] theorem memWrite_stk (r : Reg) (v : Byte) (s : State) : (memWrite r v s).stk = s.stk := by
  cases r <;> simp only [memWrite] <;> first | rfl | (split <;> rfl) | simp

@[simp] theorem memWrite_sp (r : Reg) (v : Byte) (s : State) : (memWrite r v s).sp = s.sp := by
  cases r <;> simp only [memWrite] <;> first | rfl | (split <;> rfl) | simp

@[simp] theorem memWrite_prog (r : Reg) (v : Byte) (s : State) : (memWrite r v s).prog = s.prog := by
  cases r <;> simp only [memWrite] <;> first | rfl | (split <;> rfl) | simp

@[simp] theorem memWrite_sleeping (r : Reg) (v : Byte) (s : State) : (memWrite r v s).sleeping = s.sleeping := by
  cases r <;> simp only [memWrite] <;> first | rfl | (split <;> rfl) | simp

@[simp] theorem memWrite_prefetched (r : Reg) (v : Byte) (s : State) : (memWrite r v s).prefetched = s.prefetched := by
  cases r <;> simp only [memWrite] <;> first | rfl | (split <;> rfl) | simp

@[simp] theorem memWrite_wdt (r : Reg) (v : Byte) (s : State) : (memWrite r v s).wdt = s.wdt := by
  cases r <;> simp only [memWrite] <;> first | rfl | (split <;> rfl) | simp

@[simp] theorem memWrite_rmw (r : Reg) (v : Byte) (s : State) : (memWrite r v s).rmw = s.rmw := by
  cases r <;> simp only [memWrite] <;> first | rfl | (split <;> rfl) | simp

@[simp] theorem memWrite_irqHeld (r : Reg) (v : Byte) (s : State) : (memWrite r v s).irqHeld = s.irqHeld := by
  cases r <;> simp only [memWrite] <;> first | rfl | (split <;> rfl) | simp

@[simp] theorem memWrite_env (r : Reg) (v : Byte) (s : State) : (memWrite r v s).env = s.env := by
  cases r <;> simp only [memWrite] <;> first | rfl | (split <;> rfl) | simp

/-! The same of the write of a read-modify-write -/

@[simp] theorem writeBack_w (r : Reg) (v : Byte) (s : State) : (writeBack r v s).w = s.w := by
  simp [writeBack]

@[simp] theorem writeBack_stk (r : Reg) (v : Byte) (s : State) : (writeBack r v s).stk = s.stk := by
  simp [writeBack]

@[simp] theorem writeBack_sp (r : Reg) (v : Byte) (s : State) : (writeBack r v s).sp = s.sp := by
  simp [writeBack]

@[simp] theorem writeBack_prog (r : Reg) (v : Byte) (s : State) : (writeBack r v s).prog = s.prog := by
  simp [writeBack]

@[simp] theorem writeBack_sleeping (r : Reg) (v : Byte) (s : State) : (writeBack r v s).sleeping = s.sleeping := by
  simp [writeBack]

@[simp] theorem writeBack_prefetched (r : Reg) (v : Byte) (s : State) : (writeBack r v s).prefetched = s.prefetched := by
  simp [writeBack]

@[simp] theorem writeBack_wdt (r : Reg) (v : Byte) (s : State) : (writeBack r v s).wdt = s.wdt := by
  simp [writeBack]

@[simp] theorem writeBack_irqHeld (r : Reg) (v : Byte) (s : State) : (writeBack r v s).irqHeld = s.irqHeld := by
  simp [writeBack]

@[simp] theorem writeBack_env (r : Reg) (v : Byte) (s : State) : (writeBack r v s).env = s.env := by
  simp [writeBack]

/-- Only a write of STATUS changes STATUS (R50). -/
theorem memWrite_status {r : Reg} (h : r ≠ .status) (v : Byte) (s : State) : (memWrite r v s).status = s.status := by
  cases r <;> simp only [memWrite] <;> first | rfl | exact absurd rfl h | (split <;> rfl) | simp

/-- Only a write of PCL changes PC (R38). -/
theorem memWrite_pc {r : Reg} (h : r ≠ .pcl) (v : Byte) (s : State) : (memWrite r v s).pc = s.pc := by
  cases r <;> simp only [memWrite] <;> first | rfl | exact absurd rfl h | (split <;> rfl) | simp

/-- A write to a general purpose byte changes the RAM alone; any other leaves it (R32, R113). -/
theorem memWrite_ram (r : Reg) (v : Byte) (s : State) :
    (memWrite r v s).ram = match r with
      | .gpr a => Memory.write ramBlank s.ram a v
      | _ => s.ram := by
  cases r <;> simp only [memWrite] <;> first | rfl | (split <;> rfl) | simp

/-- Everything a write of PORTB can do. -/
theorem writePortb_eq (v : Byte) (s : State) :
    writePortb v s =
      { s with
        io := { s.io with latB := v, change := (writePortb v s).io.change }
        freeIx := (writePortb v s).freeIx } := by
  unfold writePortb
  simp only
  split <;> rfl

/-- Everything a raised flag of INTCON can do. -/
theorem raiseIntcon_eq (m : Byte) (s : State) :
    raiseIntcon m s = { s with intcon := (raiseIntcon m s).intcon, freeIx := (raiseIntcon m s).freeIx } := by
  unfold raiseIntcon
  split <;> rfl

/-- Everything a raised flag of PIR1 can do. -/
theorem raisePir1_eq (m : Byte) (s : State) :
    raisePir1 m s = { s with pir1 := (raisePir1 m s).pir1, freeIx := (raisePir1 m s).freeIx } := by
  unfold raisePir1
  split <;> rfl

/-- Everything a Timer0 increment can do. -/
theorem tmr0Tick_eq (s : State) :
    tmr0Tick s =
      { s with
        t0 := { s.t0 with tmr0 := s.t0.tmr0 + 1 }
        intcon := (tmr0Tick s).intcon
        freeIx := (tmr0Tick s).freeIx } := by
  unfold tmr0Tick
  split
  · conv_lhs => rw [raiseIntcon_eq]
  · rfl

/-- The three sources of INTCON request exactly if a flag meets its enable, as `requests` pairs them. -/
theorem coreRequest_iff (s : State) :
    coreRequest s = true ↔ s.intcon.extractLsb' 3 3 &&& s.intcon.extractLsb' 0 3 ≠ 0 := by
  have h : ∀ v : Byte,
      (((v.getLsbD 5 && v.getLsbD 2) || (v.getLsbD 4 && v.getLsbD 1) || (v.getLsbD 3 && v.getLsbD 0)) = true ↔
        v.extractLsb' 3 3 &&& v.extractLsb' 0 3 ≠ 0) := by decide +kernel
  exact h s.intcon

/-- The seven sources of PIR1, as `requests` pairs them. -/
theorem peripheralRequest_iff (s : State) :
    peripheralRequest s = true ↔ s.pie1 &&& setBit s.pir1 5 s.rcif &&& 0xF7 ≠ 0 := by
  have h : ∀ v : Byte,
      ((v.getLsbD 7 || v.getLsbD 6 || v.getLsbD 5 || v.getLsbD 4 || v.getLsbD 2 || v.getLsbD 1 || v.getLsbD 0) = true ↔
        v &&& 0xF7 ≠ 0) := by decide +kernel
  have g : ∀ (v : Byte) (b : Bool),
      (setBit v 5 b).getLsbD 5 = b ∧ ∀ j < 8, j ≠ 5 → (setBit v 5 b).getLsbD j = v.getLsbD j := by decide +kernel
  have k := (g s.pir1 s.rcif).2
  rw [← h]
  simp only [BitVec.getLsbD_and, (g _ _).1, k 7 (by decide) (by decide), k 6 (by decide) (by decide),
    k 4 (by decide) (by decide), k 2 (by decide) (by decide), k 1 (by decide) (by decide), k 0 (by decide) (by decide)]
  rfl

/-- An interrupt is requested exactly if some source's request reaches the core (60_exceptions.md R312). -/
theorem irq_iff_requests (s : State) : irq s = true ↔ requests s ≠ 0 := by
  have z : ∀ (a : BitVec 3) (b : Byte), a ++ b ≠ 0#11 ↔ a ≠ 0 ∨ b ≠ 0 := by decide +kernel
  unfold requests
  simp only [irq, wake, Bool.and_eq_true, Bool.or_eq_true, coreRequest_iff, peripheralRequest_iff]
  split
  · rename_i hg
    refine Iff.trans ?_ (z _ _).symm
    simp only [hg, true_and]
    split
    · rename_i hp
      simp only [hp, true_and]
    · rename_i hp
      exact ⟨fun h => h.imp id fun k => absurd k.1 hp, fun h => h.imp id fun k => absurd rfl k⟩
  · rename_i hg
    exact ⟨fun h => absurd h.1 hg, fun h => absurd rfl h⟩

end Sys2Proof.Machine
end

