-- ==== Sys2Proof/Laws/Devices.lean ====
section
/-! SUPPORT. Everything that the passing of time can do: the on-chip devices change their own registers and flags
(20_memory.md R125). -/

namespace Sys2Proof.Machine

/-- `t` differs from `s` only in what the on-chip devices own: the timers, CCP1, the USART, the EEPROM's cycle counts, PIR1,
the three flags of INTCON, the pins last seen and the draws. -/
structure DevicesOnly (s t : State) : Prop where
  w : t.w = s.w
  pc : t.pc = s.pc
  stk : t.stk = s.stk
  sp : t.sp = s.sp
  status : t.status = s.status
  fsr : t.fsr = s.fsr
  pclath : t.pclath = s.pclath
  ram : t.ram = s.ram
  prog : t.prog = s.prog
  sleeping : t.sleeping = s.sleeping
  prefetched : t.prefetched = s.prefetched
  pie1 : t.pie1 = s.pie1
  option : t.option = s.option
  pcon : t.pcon = s.pcon
  wdt : t.wdt = s.wdt
  cmp : t.cmp = s.cmp
  cycles : t.cycles = s.cycles
  rmw : t.rmw = s.rmw
  irqHeld : t.irqHeld = s.irqHeld
  env : t.env = s.env
  intcon : ∃ f : Byte, f &&& 0xF8 = 0 ∧ t.intcon = s.intcon ||| f
  cells : t.ee.cells = s.ee.cells
  io : { t.io with seenA := s.io.seenA, seenB := s.io.seenB, seenClk := s.io.seenClk } = s.io

theorem DevicesOnly.refl (s : State) : DevicesOnly s s := by
  constructor <;> first | rfl | exact ⟨0, by simp, by simp⟩

theorem DevicesOnly.trans {s t u : State} (h : DevicesOnly s t) (k : DevicesOnly t u) : DevicesOnly s u where
  w := k.w.trans h.w
  pc := k.pc.trans h.pc
  stk := k.stk.trans h.stk
  sp := k.sp.trans h.sp
  status := k.status.trans h.status
  fsr := k.fsr.trans h.fsr
  pclath := k.pclath.trans h.pclath
  ram := k.ram.trans h.ram
  prog := k.prog.trans h.prog
  sleeping := k.sleeping.trans h.sleeping
  prefetched := k.prefetched.trans h.prefetched
  pie1 := k.pie1.trans h.pie1
  option := k.option.trans h.option
  pcon := k.pcon.trans h.pcon
  wdt := k.wdt.trans h.wdt
  cmp := k.cmp.trans h.cmp
  cycles := k.cycles.trans h.cycles
  rmw := k.rmw.trans h.rmw
  irqHeld := k.irqHeld.trans h.irqHeld
  env := k.env.trans h.env
  intcon := by
    obtain ⟨f, hf, h⟩ := h.intcon
    obtain ⟨g, hg, k⟩ := k.intcon
    refine ⟨f ||| g, ?_, by rw [k, h, BitVec.or_assoc]⟩
    ext i hi
    have hf := congrArg (·.getLsbD i) hf
    have hg := congrArg (·.getLsbD i) hg
    simp only [BitVec.getLsbD_and] at hf hg
    simp only [← BitVec.getLsbD_eq_getElem, BitVec.getLsbD_and, BitVec.getLsbD_or, Bool.and_or_distrib_right, hf, hg]
    simp
  cells := k.cells.trans h.cells
  io := by
    have h := h.io
    have k := k.io
    generalize u.io = c at *
    generalize t.io = b at *
    generalize s.io = a at *
    cases a
    cases b
    cases c
    simp_all

/-- A change of the device registers alone. -/
theorem DevicesOnly.update (s : State) (p : Byte) (a : Timer0) (b : Timer1) (c : Timer2) (d : Ccp) (u : Usart) (n : Nat) :
    DevicesOnly s { s with pir1 := p, t0 := a, t1 := b, t2 := c, ccp := d, usart := u, freeIx := n } := by
  constructor <;> first | rfl | exact ⟨0, by simp, by simp⟩

theorem raiseIntcon_devices {m : Byte} (hm : m &&& 0xF8 = 0) (s : State) : DevicesOnly s (raiseIntcon m s) := by
  constructor
  case intcon =>
    unfold raiseIntcon
    split
    · refine ⟨m &&& s.free, ?_, rfl⟩
      rw [BitVec.and_assoc, BitVec.and_comm s.free, ← BitVec.and_assoc, hm]
      exact BitVec.zero_and
    · exact ⟨m, hm, rfl⟩
  all_goals simp

theorem raisePir1_devices (m : Byte) (s : State) : DevicesOnly s (raisePir1 m s) := by
  rw [raisePir1_eq]
  exact .update s _ s.t0 s.t1 s.t2 s.ccp s.usart _

theorem tmr0Tick_devices (s : State) : DevicesOnly s (tmr0Tick s) := by
  have h (a : Timer0) : DevicesOnly s { s with t0 := a } := .update s s.pir1 a s.t1 s.t2 s.ccp s.usart s.freeIx
  unfold tmr0Tick
  split
  · exact (h _).trans (raiseIntcon_devices (by decide) _)
  · exact h _

theorem t0Clock_devices (s : State) : DevicesOnly s (t0Clock s) := by
  have h (a : Timer0) : DevicesOnly s { s with t0 := a } := .update s s.pir1 a s.t1 s.t2 s.ccp s.usart s.freeIx
  unfold t0Clock
  simp only
  split
  · exact tmr0Tick_devices s
  · split
    · exact (h _).trans (tmr0Tick_devices _)
    · exact h _

theorem t0Cycle_devices (s : State) : DevicesOnly s (t0Cycle s) := by
  unfold t0Cycle
  split
  · exact .refl s
  · split
    · exact .update s s.pir1 _ s.t1 s.t2 s.ccp s.usart s.freeIx
    · split
      · exact .refl s
      · exact t0Clock_devices s

theorem setTmr1_devices (v : BitVec 16) (s : State) : DevicesOnly s (setTmr1 v s) :=
  .update s s.pir1 s.t0 _ s.t2 s.ccp s.usart s.freeIx

theorem spend_devices (s : State) : DevicesOnly s s.spend := .update s s.pir1 s.t0 s.t1 s.t2 s.ccp s.usart _

theorem ccp_devices (s : State) (d : Ccp) : DevicesOnly s { s with ccp := d } :=
  .update s s.pir1 s.t0 s.t1 s.t2 d s.usart s.freeIx

theorem t1_devices (s : State) (b : Timer1) : DevicesOnly s { s with t1 := b } :=
  .update s s.pir1 s.t0 b s.t2 s.ccp s.usart s.freeIx

theorem t2_devices (s : State) (c : Timer2) : DevicesOnly s { s with t2 := c } :=
  .update s s.pir1 s.t0 s.t1 c s.ccp s.usart s.freeIx

theorem compareMatch_devices (s : State) : DevicesOnly s (compareMatch s) := by
  unfold compareMatch
  simp only
  split
  · exact (raisePir1_devices _ s).trans (ccp_devices _ _)
  · split
    · exact (raisePir1_devices _ s).trans (ccp_devices _ _)
    · exact raisePir1_devices _ s

theorem t1Advance_devices (s : State) : DevicesOnly s (t1Advance s) := by
  unfold t1Advance
  simp only
  split
  · exact (setTmr1_devices _ s).trans (raisePir1_devices _ _)
  · exact setTmr1_devices _ s

theorem t1Compare_devices (s : State) : DevicesOnly s (t1Compare s) := by
  unfold t1Compare
  split
  · split
    · split
      · exact (spend_devices s).trans (compareMatch_devices _)
      · exact spend_devices s
    · exact compareMatch_devices s
  · exact .refl s

theorem t1Count_devices (s : State) : DevicesOnly s (t1Count s) := (t1Advance_devices s).trans (t1Compare_devices _)

theorem specialEvent_devices (s : State) : DevicesOnly s (specialEvent s) :=
  (raisePir1_devices _ s).trans (setTmr1_devices _ _)

theorem t1Inc_devices (s : State) : DevicesOnly s (t1Inc s) := by
  unfold t1Inc
  split
  · split
    · split
      · exact (spend_devices s).trans (specialEvent_devices _)
      · exact (spend_devices s).trans (t1Count_devices _)
    · exact specialEvent_devices s
  · exact t1Count_devices s

theorem t1Clock_devices (s : State) : DevicesOnly s (t1Clock s) := by
  unfold t1Clock
  split
  · exact (t1_devices s _).trans (t1Inc_devices _)
  · exact t1_devices s _

theorem t1Cycle_devices (s : State) : DevicesOnly s (t1Cycle s) := by
  unfold t1Cycle
  split
  · exact t1Clock_devices s
  · exact .refl s

theorem pwmPeriodStart_devices (s : State) : DevicesOnly s (pwmPeriodStart s) := by
  unfold pwmPeriodStart
  split
  · exact ccp_devices s _
  · exact .refl s

theorem pwmCompare_devices (s : State) : DevicesOnly s (pwmCompare s) := by
  unfold pwmCompare
  split
  · exact ccp_devices s _
  · exact .refl s

theorem pwmCompareQ_devices (s : State) : DevicesOnly s (pwmCompareQ s) := by
  unfold pwmCompareQ
  split
  · exact ccp_devices s _
  · exact .refl s

theorem t2Match_devices (s : State) : DevicesOnly s (t2Match s) := by
  have h (c : Timer2) : DevicesOnly s (pwmPeriodStart { s with t2 := c }) :=
    (t2_devices s c).trans (pwmPeriodStart_devices _)
  unfold t2Match
  simp only
  split
  · exact ((h _).trans (t2_devices _ _)).trans (raisePir1_devices _ _)
  · exact (h _).trans (t2_devices _ _)

theorem t2Inc_devices (s : State) : DevicesOnly s (t2Inc s) := by
  unfold t2Inc
  split
  · exact t2Match_devices s
  · exact t2_devices s _

theorem t2Clock_devices (s : State) : DevicesOnly s (t2Clock s) := by
  unfold t2Clock
  split
  · exact (t2_devices s _).trans (t2Inc_devices _)
  · exact t2_devices s _

theorem t2Cycle_devices (s : State) : DevicesOnly s (t2Cycle s) := by
  unfold t2Cycle
  simp only
  split
  · exact ((pwmCompareQ_devices s).trans (t2Clock_devices _)).trans (pwmCompare_devices _)
  · exact (pwmCompareQ_devices s).trans (pwmCompare_devices _)

theorem txCycle_devices (s : State) : DevicesOnly s (txCycle s) :=
  .update s _ s.t0 s.t1 s.t2 s.ccp _ s.freeIx

theorem capture_devices (s : State) : DevicesOnly s (capture s) := (ccp_devices s _).trans (raisePir1_devices _ _)

theorem captureEvery_devices (n : Nat) (s : State) : DevicesOnly s (captureEvery n s) := by
  unfold captureEvery
  split
  · exact (ccp_devices s _).trans (capture_devices _)
  · exact ccp_devices s _

/-- Everything an instruction cycle can do (70_reset_and_hazards.md R430). -/
theorem tick_devices (s : State) : DevicesOnly s (tick s) := by
  have h : DevicesOnly s { s with ee := eeCycle s.ee } := by
    constructor <;> first | rfl | exact ⟨0, by simp, by simp⟩
  unfold tick
  simp only
  split
  · exact h
  · exact (((h.trans (t0Cycle_devices _)).trans (t1Cycle_devices _)).trans (t2Cycle_devices _)).trans (txCycle_devices _)

theorem tickN_devices (n : Nat) (s : State) : DevicesOnly s (tickN n s) := by
  induction n generalizing s with
  | zero => exact .refl s
  | succ n ih => exact (tick_devices s).trans (ih _)

theorem t0Edge_devices (a : Byte) (s : State) : DevicesOnly s (t0Edge a s) := by
  unfold t0Edge
  simp only
  repeat' split
  all_goals first | exact t0Clock_devices s | exact .refl s

theorem t1Edge_devices (c : Bool) (s : State) : DevicesOnly s (t1Edge c s) := by
  unfold t1Edge
  repeat' split
  all_goals first | exact t1Clock_devices s | exact .refl s | exact t1_devices s _

theorem captureEdge_devices (b : Byte) (s : State) : DevicesOnly s (captureEdge b s) := by
  unfold captureEdge
  split <;> first | exact .refl s | split
  all_goals first | exact .refl s | exact capture_devices s | exact captureEvery_devices _ s

theorem intEdge_devices (b : Byte) (s : State) : DevicesOnly s (intEdge b s) := by
  unfold intEdge
  repeat' split
  all_goals first | exact raiseIntcon_devices (by decide) s | exact .refl s

theorem portChange_devices (b : Byte) (s : State) : DevicesOnly s (portChange b s) := by
  unfold portChange
  split
  · exact raiseIntcon_devices (by decide) s
  · exact .refl s

theorem comparatorChange_devices (s : State) : DevicesOnly s (comparatorChange s) := by
  unfold comparatorChange
  split
  · exact raisePir1_devices _ s
  · exact .refl s

theorem remember_devices (a b : Byte) (c : Bool) (s : State) : DevicesOnly s (remember a b c s) := by
  constructor <;> first | rfl | exact ⟨0, by simp, by simp⟩

/-- Everything a sample of the pins can do. -/
theorem sample_devices (s : State) : DevicesOnly s (sample s) :=
  ((((((t0Edge_devices _ s).trans (t1Edge_devices _ _)).trans (captureEdge_devices _ _)).trans
    (intEdge_devices _ _)).trans (portChange_devices _ _)).trans (comparatorChange_devices _)).trans
      (remember_devices _ _ _ _)

theorem endWrite_devices (s : State) : DevicesOnly s (endWrite s) :=
  .update s s.pir1 _ s.t1 s.t2 s.ccp s.usart s.freeIx

/-- Everything that happens after the effect of an instruction. -/
theorem finishStep_devices (s : State) : DevicesOnly s (finishStep s) :=
  ((tickN_devices _ s).trans (endWrite_devices _)).trans (sample_devices _)

end Sys2Proof.Machine
end

