-- ==== Sys2Proof/Laws/Flags.lean ====
section
/-! SUPPORT. How computed flags read in STATUS. -/

namespace Sys2Proof.Machine

/-- An update of Z alone keeps the other seven bits. -/
theorem apply_zero (z : Bool) (st : Byte) :
    FlagUpdate.apply ⟨none, none, some z⟩ st = statusOf st z (st.getLsbD 1) (st.getLsbD 0) := by
  revert z st
  decide +kernel

/-- An update of C alone keeps the other seven bits. -/
theorem apply_carry (c : Bool) (st : Byte) :
    FlagUpdate.apply ⟨some c, none, none⟩ st = statusOf st (st.getLsbD 2) (st.getLsbD 1) c := by
  revert c st
  decide +kernel

/-- An update of all three flags keeps bits 7:3. -/
theorem apply_all (c dc z : Bool) (st : Byte) :
    FlagUpdate.apply ⟨some c, some dc, some z⟩ st = statusOf st z dc c := by
  revert c dc z st
  decide +kernel

/-- Setting Z alone. -/
theorem statusOf_zero (st : Byte) : statusOf st true (st.getLsbD 1) (st.getLsbD 0) = st ||| 0x04 := by
  revert st
  decide +kernel

/-- Bits 7:3 are those of the old STATUS, and the three flags are the ones given. -/
theorem statusOf_bits (st : Byte) (z dc c : Bool) :
    (statusOf st z dc c).extractLsb' 3 5 = st.extractLsb' 3 5 ∧ (statusOf st z dc c).getLsbD 2 = z ∧
      (statusOf st z dc c).getLsbD 1 = dc ∧ (statusOf st z dc c).getLsbD 0 = c := by
  revert st z dc c
  decide +kernel

theorem statusOf_toPd (st : Byte) (z dc c : Bool) :
    (statusOf st z dc c).getLsbD 4 = st.getLsbD 4 ∧ (statusOf st z dc c).getLsbD 3 = st.getLsbD 3 := by
  revert st z dc c
  decide +kernel

/-- No update of flags reaches TO or PD (R49). -/
theorem apply_toPd (u : FlagUpdate) (st : Byte) :
    (u.apply st).getLsbD 4 = st.getLsbD 4 ∧ (u.apply st).getLsbD 3 = st.getLsbD 3 := by
  obtain ⟨c, dc, z⟩ := u
  revert c dc z st
  decide +kernel

/-- A write of STATUS keeps TO and PD (R50). -/
theorem merge_status_toPd (old v : Byte) :
    (merge 0xE7 old v).getLsbD 4 = old.getLsbD 4 ∧ (merge 0xE7 old v).getLsbD 3 = old.getLsbD 3 := by
  simp [merge]

/-- Flags leave TO and PD as they were. -/
theorem putFlags_toPd (u : FlagUpdate) (b : Bool) (s : State) :
    (putFlags u b s).status.getLsbD 4 = s.status.getLsbD 4 ∧ (putFlags u b s).status.getLsbD 3 = s.status.getLsbD 3 := by
  unfold putFlags
  split
  · exact ⟨rfl, rfl⟩
  · split <;> exact apply_toPd _ _

/-- A register write leaves TO and PD as they were (R49). -/
theorem memWrite_toPd (r : Reg) (v : Byte) (s : State) :
    (memWrite r v s).status.getLsbD 4 = s.status.getLsbD 4 ∧ (memWrite r v s).status.getLsbD 3 = s.status.getLsbD 3 := by
  by_cases h : r = .status
  · subst h
    exact merge_status_toPd _ _
  · rw [memWrite_status h]
    exact ⟨rfl, rfl⟩

/-- No flag listed: nothing happens. -/
@[simp] theorem putFlags_none (b : Bool) (s : State) : putFlags noFlags b s = s := by simp [putFlags]

/-- Flags of an instruction whose destination is not STATUS. -/
theorem putFlags_plain (u : FlagUpdate) (s : State) : putFlags u false s = { s with status := u.apply s.status } := by
  unfold putFlags
  split
  · subst u
    rfl
  · rfl

/-- All three flags listed: none is open, STATUS the destination or not. -/
theorem putFlags_all (c dc z : Bool) (b : Bool) (s : State) :
    putFlags ⟨some c, some dc, some z⟩ b s = { s with status := statusOf s.status z dc c } := by
  simp [putFlags, noFlags, FlagUpdate.listsAll, apply_all]

end Sys2Proof.Machine
end

