-- ==== Sys2Proof/Laws/Memory.lean ====
section
/-! SUPPORT. Memories: a read after a write, and the canonical form that every memory operation keeps. -/

namespace Sys2Proof.Machine

variable {n : Nat}

theorem Memory.rising_cons {a : Nat} {v : BitVec n} {m : Memory n} :
    Memory.rising ((a, v) :: m) = true ↔ (∀ c ∈ m, a < c.1) ∧ Memory.rising m = true := by
  simp [Memory.rising]

theorem Memory.wf_cons {a : Nat} {v blank : BitVec n} {m : Memory n} :
    Memory.wf blank ((a, v) :: m) = true ↔
      (∀ c ∈ m, a < c.1) ∧ v ≠ blank ∧ Memory.wf blank m = true := by
  simp only [Memory.wf, Bool.and_eq_true, Memory.rising_cons, List.all_cons, decide_eq_true_eq]
  tauto

/-- Every cell after an insertion is the new one or an old one. -/
theorem Memory.mem_insert {a : Nat} {v : BitVec n} {m : Memory n} {c : Nat × BitVec n} (h : c ∈ Memory.insert m a v) :
    c = (a, v) ∨ c ∈ m := by
  induction m with
  | nil => simpa [Memory.insert] using h
  | cons b m ih =>
    obtain ⟨b, u⟩ := b
    simp only [Memory.insert] at h
    split at h
    · simpa using h
    · split at h
      · simp only [List.mem_cons] at h ⊢
        tauto
      · simp only [List.mem_cons] at h ⊢
        obtain h | h := h
        · exact .inr (.inl h)
        · obtain h | h := ih h <;> tauto

/-- Every cell after an erasure is an old one. -/
theorem Memory.mem_erase {a : Nat} {m : Memory n} {c : Nat × BitVec n} (h : c ∈ Memory.erase m a) : c ∈ m := by
  induction m with
  | nil => simp [Memory.erase] at h
  | cons b m ih =>
    obtain ⟨b, u⟩ := b
    simp only [Memory.erase] at h
    split at h
    · exact List.mem_cons_of_mem _ h
    · simp only [List.mem_cons] at h ⊢
      exact h.imp id ih

theorem Memory.mem_write {a : Nat} {v blank : BitVec n} {m : Memory n} {c : Nat × BitVec n}
    (h : c ∈ Memory.write blank m a v) : c = (a, v) ∨ c ∈ m := by
  unfold Memory.write at h
  split at h
  · exact .inr (Memory.mem_erase h)
  · exact Memory.mem_insert h

theorem Memory.insert_rising {a : Nat} {v : BitVec n} {m : Memory n} (h : Memory.rising m = true) :
    Memory.rising (Memory.insert m a v) = true := by
  induction m with
  | nil => simp [Memory.insert, Memory.rising]
  | cons b m ih =>
    obtain ⟨b, u⟩ := b
    rw [Memory.rising_cons] at h
    simp only [Memory.insert]
    split
    · rw [Memory.rising_cons, Memory.rising_cons]
      refine ⟨fun c hc => ?_, h⟩
      obtain rfl | hc := List.mem_cons.1 hc
      · assumption
      · have := h.1 c hc
        omega
    · split
      · rw [Memory.rising_cons]
        exact ⟨fun c hc => by have := h.1 c hc; omega, h.2⟩
      · rw [Memory.rising_cons]
        refine ⟨fun c hc => ?_, ih h.2⟩
        obtain rfl | hc := Memory.mem_insert hc
        · simp only
          omega
        · exact h.1 c hc

theorem Memory.erase_rising {a : Nat} {m : Memory n} (h : Memory.rising m = true) :
    Memory.rising (Memory.erase m a) = true := by
  induction m with
  | nil => simpa [Memory.erase] using h
  | cons b m ih =>
    obtain ⟨b, u⟩ := b
    rw [Memory.rising_cons] at h
    simp only [Memory.erase]
    split
    · exact h.2
    · rw [Memory.rising_cons]
      exact ⟨fun c hc => h.1 c (Memory.mem_erase hc), ih h.2⟩

/-- A write keeps the canonical form. -/
theorem Memory.write_wf {a : Nat} {v blank : BitVec n} {m : Memory n} (h : Memory.wf blank m = true) :
    Memory.wf blank (Memory.write blank m a v) = true := by
  simp only [Memory.wf, Bool.and_eq_true, List.all_eq_true, decide_eq_true_eq] at h ⊢
  unfold Memory.write
  split
  · exact ⟨Memory.erase_rising h.1, fun c hc => h.2 c (Memory.mem_erase hc)⟩
  · refine ⟨Memory.insert_rising h.1, fun c hc => ?_⟩
    obtain rfl | hc := Memory.mem_insert hc
    · assumption
    · exact h.2 c hc

theorem Memory.find_insert_self {a : Nat} {v : BitVec n} (m : Memory n) : (Memory.insert m a v).find a = some v := by
  induction m with
  | nil => simp [Memory.insert, Memory.find]
  | cons b m ih =>
    obtain ⟨b, u⟩ := b
    simp only [Memory.insert]
    split
    · simp [Memory.find]
    · split
      · simp [Memory.find]
      · have : b ≠ a := by omega
        simp [Memory.find, this, ih]

theorem Memory.find_insert_other {a a' : Nat} {v : BitVec n} (h : a' ≠ a) (m : Memory n) :
    (Memory.insert m a v).find a' = m.find a' := by
  induction m with
  | nil => simp [Memory.insert, Memory.find, h.symm]
  | cons b m ih =>
    obtain ⟨b, u⟩ := b
    simp only [Memory.insert]
    split
    · simp [Memory.find, h.symm]
    · split
      · subst b
        simp [Memory.find, h.symm]
      · simp [Memory.find, ih]

theorem Memory.find_none {a : Nat} {m : Memory n} (h : ∀ c ∈ m, a < c.1) : m.find a = none := by
  induction m with
  | nil => rfl
  | cons b m ih =>
    obtain ⟨b, u⟩ := b
    have hb : a < b := h (b, u) (by simp)
    have : b ≠ a := by omega
    simp only [Memory.find, this, if_false]
    exact ih fun c hc => h c (List.mem_cons_of_mem _ hc)

theorem Memory.find_erase_self {a : Nat} {m : Memory n} (h : Memory.rising m = true) : (Memory.erase m a).find a = none := by
  induction m with
  | nil => rfl
  | cons b m ih =>
    obtain ⟨b, u⟩ := b
    rw [Memory.rising_cons] at h
    simp only [Memory.erase]
    split
    · subst b
      exact Memory.find_none h.1
    · rename_i hb
      simp [Memory.find, hb, ih h.2]

theorem Memory.find_erase_other {a a' : Nat} (h : a' ≠ a) (m : Memory n) : (Memory.erase m a).find a' = m.find a' := by
  induction m with
  | nil => rfl
  | cons b m ih =>
    obtain ⟨b, u⟩ := b
    simp only [Memory.erase]
    split
    · subst b
      simp [Memory.find, h.symm]
    · simp [Memory.find, ih]

/-- A read after a write to the same place gives the value written. -/
theorem Memory.read_write_self {a : Nat} {v blank : BitVec n} {m : Memory n} (h : Memory.rising m = true) :
    Memory.read blank (Memory.write blank m a v) a = v := by
  unfold Memory.read Memory.write
  split
  · simp [Memory.find_erase_self h, *]
  · simp [Memory.find_insert_self]

/-- A write leaves every other place alone. -/
theorem Memory.read_write_other {a a' : Nat} {v blank : BitVec n} (h : a' ≠ a) (m : Memory n) :
    Memory.read blank (Memory.write blank m a v) a' = Memory.read blank m a' := by
  unfold Memory.read Memory.write
  split
  · rw [Memory.find_erase_other h]
  · rw [Memory.find_insert_other h]

/-- The memories of the reset state have the canonical form. -/
theorem reset_memories_wf :
    Memory.wf ramBlank State.reset.ram = true ∧ Memory.wf eeBlank State.reset.ee.cells = true ∧
      Memory.rising State.reset.prog = true := by
  decide

end Sys2Proof.Machine
end

