-- ==== Sys2Proof/Laws/Invariant.lean ====
section
/-! SUPPORT. Each shared operation keeps the invariant State.Inv. -/

namespace Sys2Proof.Machine

/-! ## Bit facts -/

theorem and_or_zero {a b m : Byte} (ha : a &&& m = 0) (hb : b &&& m = 0) : (a ||| b) &&& m = 0 := by
  ext i hi
  have ha := congrArg (·.getLsbD i) ha
  have hb := congrArg (·.getLsbD i) hb
  simp only [BitVec.getLsbD_and] at ha hb
  simp only [← BitVec.getLsbD_eq_getElem, BitVec.getLsbD_and, BitVec.getLsbD_or, Bool.and_or_distrib_right, ha, hb]
  simp

theorem and_zero_of_and {a b m : Byte} (ha : a &&& m = 0) : (a &&& b) &&& m = 0 := by
  rw [BitVec.and_assoc, BitVec.and_comm b, ← BitVec.and_assoc, ha]
  exact BitVec.zero_and

theorem setBit_and_zero {i : Nat} {b : Bool} {v m : Byte} (hv : v &&& m = 0) (hm : (1#8 <<< i) &&& m = 0) :
    setBit v i b &&& m = 0 := by
  unfold setBit
  split
  · exact and_or_zero hv hm
  · exact and_zero_of_and hv

/-- The bits of a byte with bit `i` set to `b`. -/
theorem setBit_getLsbD {i j : Nat} (hi : i < 8) (b : Bool) (v : Byte) :
    (setBit v i b).getLsbD j = if j = i then b else v.getLsbD j := by
  unfold setBit
  by_cases h : j = i
  · subst h; cases b <;> simp [hi]
  · by_cases h8 : j < 8
    · cases b <;> simp [h, h8] <;> omega
    · cases b <;> simp [h, h8, BitVec.getLsbD_of_ge v j (by omega)]

theorem masked_and_zero {k m : Byte} (h : k &&& m = 0) (v : Byte) : (v &&& k) &&& m = 0 := by
  rw [BitVec.and_assoc, h]
  exact BitVec.and_zero

theorem merge_and_zero {k o v m : Byte} (ho : o &&& m = 0) (h : k &&& m = 0) : merge k o v &&& m = 0 :=
  and_or_zero (and_zero_of_and ho) (masked_and_zero h v)

/-! ## Hardware flags -/

theorem raiseIntcon_inv {s : State} (m : Byte) (h : s.Inv) : (raiseIntcon m s).Inv := by
  rw [raiseIntcon_eq]
  exact { h with }

theorem raisePir1_inv {s : State} {m : Byte} (hm : m &&& 0x28 = 0) (h : s.Inv) : (raisePir1 m s).Inv := by
  unfold raisePir1
  split
  · exact { h with pir1 := and_or_zero h.pir1 (and_zero_of_and hm) }
  · exact { h with pir1 := and_or_zero h.pir1 hm }

theorem spend_inv {s : State} (h : s.Inv) : s.spend.Inv := { h with }

/-! ## Timers -/

theorem tmr0Tick_inv {s : State} (h : s.Inv) : (tmr0Tick s).Inv := by
  rw [tmr0Tick_eq]
  exact { h with t0 := h.t0 }

theorem t0Clock_inv {s : State} (h : s.Inv) : (t0Clock s).Inv := by
  have k (p : Byte) : State.Inv { s with t0 := { s.t0 with prescaler := p, counted := true } } := { h with t0 := h.t0 }
  unfold t0Clock
  simp only
  split
  · exact tmr0Tick_inv h
  · split
    · exact tmr0Tick_inv (k _)
    · exact k _

theorem t0Cycle_inv {s : State} (h : s.Inv) : (t0Cycle s).Inv := by
  unfold t0Cycle
  split
  · exact h
  · split
    · exact { h with t0 := le_trans (Nat.sub_le _ _) h.t0 }
    · split
      · exact h
      · exact t0Clock_inv h

theorem setTmr1_inv {s : State} (v : BitVec 16) (h : s.Inv) : (setTmr1 v s).Inv := { h with t1 := h.t1 }

theorem t1Advance_inv {s : State} (h : s.Inv) : (t1Advance s).Inv := by
  unfold t1Advance
  simp only
  split
  · exact raisePir1_inv (by decide) (setTmr1_inv _ h)
  · exact setTmr1_inv _ h

theorem compareMatch_inv {s : State} (h : s.Inv) : (compareMatch s).Inv := by
  have k : (raisePir1 ccp1if s).Inv := raisePir1_inv (by decide) h
  unfold compareMatch
  simp only
  split
  · exact { k with ccp := k.ccp }
  · split
    · exact { k with ccp := k.ccp }
    · exact k

theorem t1Compare_inv {s : State} (h : s.Inv) : (t1Compare s).Inv := by
  unfold t1Compare
  repeat' split
  · exact compareMatch_inv (spend_inv h)
  · exact spend_inv h
  · exact compareMatch_inv h
  · exact h

theorem t1Count_inv {s : State} (h : s.Inv) : (t1Count s).Inv := t1Compare_inv (t1Advance_inv h)

theorem specialEvent_inv {s : State} (h : s.Inv) : (specialEvent s).Inv := setTmr1_inv _ (raisePir1_inv (by decide) h)

theorem t1Inc_inv {s : State} (h : s.Inv) : (t1Inc s).Inv := by
  unfold t1Inc
  repeat' split
  · exact specialEvent_inv (spend_inv h)
  · exact t1Count_inv (spend_inv h)
  · exact specialEvent_inv h
  · exact t1Count_inv h

/-- T1CKPS selects at most 1:8. -/
theorem t1_prescale_le (s : State) : 2 ^ s.t1ckps ≤ 8 := by
  have : s.t1ckps < 4 := (s.t1.con.extractLsb' 4 2).isLt
  calc 2 ^ s.t1ckps ≤ 2 ^ 3 := Nat.pow_le_pow_right (by decide) (by omega)
    _ = 8 := by decide

theorem t1Clock_inv {s : State} (h : s.Inv) : (t1Clock s).Inv := by
  have hp := t1_prescale_le s
  unfold t1Clock
  split
  · exact t1Inc_inv { h with t1 := ⟨h.t1.1, Nat.zero_lt_succ _⟩ }
  · exact { h with t1 := ⟨h.t1.1, by simp only; omega⟩ }

theorem t1Cycle_inv {s : State} (h : s.Inv) : (t1Cycle s).Inv := by
  unfold t1Cycle
  split
  · exact t1Clock_inv h
  · exact h

/-- T2CKPS selects at most 1:16. -/
theorem t2Prescale_le (s : State) : t2Prescale s ≤ 16 := by
  unfold t2Prescale
  split <;> decide

theorem t2Postscale_le (s : State) : t2Postscale s ≤ 16 := by
  have : (s.t2.con.extractLsb' 3 4).toNat < 16 := (s.t2.con.extractLsb' 3 4).isLt
  unfold t2Postscale
  omega

theorem pwmPeriodStart_inv {s : State} (h : s.Inv) : (pwmPeriodStart s).Inv := by
  unfold pwmPeriodStart
  split
  · exact { h with ccp := h.ccp }
  · exact h

theorem pwmCompare_inv {s : State} (h : s.Inv) : (pwmCompare s).Inv := by
  unfold pwmCompare
  split
  · exact { h with ccp := h.ccp }
  · exact h

theorem pwmCompareQ_inv {s : State} (h : s.Inv) : (pwmCompareQ s).Inv := by
  unfold pwmCompareQ
  split
  · exact { h with ccp := h.ccp }
  · exact h

theorem t2Match_inv {s : State} (h : s.Inv) : (t2Match s).Inv := by
  have hp := t2Postscale_le s
  have k : (pwmPeriodStart { s with t2 := { s.t2 with tmr := 0 } }).Inv := pwmPeriodStart_inv { h with t2 := h.t2 }
  unfold t2Match
  simp only
  split
  · exact raisePir1_inv (by decide) { k with t2 := ⟨k.t2.1, k.t2.2.1, Nat.zero_lt_succ _⟩ }
  · exact { k with t2 := ⟨k.t2.1, k.t2.2.1, by simp only; omega⟩ }

theorem t2Inc_inv {s : State} (h : s.Inv) : (t2Inc s).Inv := by
  unfold t2Inc
  split
  · exact t2Match_inv h
  · exact { h with t2 := h.t2 }

theorem t2Clock_inv {s : State} (h : s.Inv) : (t2Clock s).Inv := by
  have hp := t2Prescale_le s
  unfold t2Clock
  split
  · exact t2Inc_inv { h with t2 := ⟨h.t2.1, Nat.zero_lt_succ _, h.t2.2.2⟩ }
  · exact { h with t2 := ⟨h.t2.1, by simp only; omega, h.t2.2.2⟩ }

theorem t2Cycle_inv {s : State} (h : s.Inv) : (t2Cycle s).Inv := by
  unfold t2Cycle
  simp only
  split
  · exact pwmCompare_inv (t2Clock_inv (pwmCompareQ_inv h))
  · exact pwmCompare_inv (pwmCompareQ_inv h)

theorem capture_inv {s : State} (h : s.Inv) : (capture s).Inv := raisePir1_inv (by decide) { h with ccp := h.ccp }

theorem captureEvery_inv {s : State} {n : Nat} (hn : n ≤ 16) (h : s.Inv) : (captureEvery n s).Inv := by
  unfold captureEvery
  split
  · exact capture_inv { h with ccp := ⟨h.ccp.1, Nat.zero_lt_succ _⟩ }
  · exact { h with ccp := ⟨h.ccp.1, by simp only; omega⟩ }

/-! ## An instruction cycle, the pins -/

theorem eeCycle_ok {e : Eeprom} (h : e.ok) : (eeCycle e).ok := by
  obtain ⟨h1, -, h3, h4⟩ := h
  refine ⟨h1, fun w hw => ?_, h3, h4⟩
  obtain ⟨v, -, rfl⟩ := Option.map_eq_some_iff.1 hw
  exact Nat.min_le_left _ _

theorem txLoad_ok {u : Usart} (h : u.ok) : (txLoad u).ok := by
  unfold txLoad
  split
  · exact h
  · exact h

theorem txCycle_inv {s : State} (h : s.Inv) : (txCycle s).Inv := by
  refine { h with usart := ?_, pir1 := setBit_and_zero h.pir1 (by decide) }
  unfold txCycle
  simp only
  split
  · exact txLoad_ok h.usart
  · exact h.usart

theorem tick_inv {s : State} (h : s.Inv) : (tick s).Inv := by
  have k : State.Inv { s with ee := eeCycle s.ee } := { h with ee := eeCycle_ok h.ee }
  unfold tick
  simp only
  split
  · exact k
  · exact txCycle_inv (t2Cycle_inv (t1Cycle_inv (t0Cycle_inv k)))

theorem tickN_inv {s : State} (n : Nat) (h : s.Inv) : (tickN n s).Inv := by
  induction n generalizing s with
  | zero => exact h
  | succ n ih => exact ih (tick_inv h)

theorem t0Edge_inv {s : State} (a : Byte) (h : s.Inv) : (t0Edge a s).Inv := by
  unfold t0Edge
  simp only
  repeat' split
  all_goals first | exact t0Clock_inv h | exact h

theorem t1Edge_inv {s : State} (c : Bool) (h : s.Inv) : (t1Edge c s).Inv := by
  unfold t1Edge
  repeat' split
  all_goals first | exact t1Clock_inv h | exact h | exact { h with t1 := h.t1 }

theorem captureEdge_inv {s : State} (b : Byte) (h : s.Inv) : (captureEdge b s).Inv := by
  unfold captureEdge
  split <;> first | exact h | split
  all_goals first | exact h | exact capture_inv h | exact captureEvery_inv (by decide) h

theorem intEdge_inv {s : State} (b : Byte) (h : s.Inv) : (intEdge b s).Inv := by
  unfold intEdge
  repeat' split
  all_goals first | exact raiseIntcon_inv _ h | exact h

theorem portChange_inv {s : State} (b : Byte) (h : s.Inv) : (portChange b s).Inv := by
  unfold portChange
  split
  · exact raiseIntcon_inv _ h
  · exact h

theorem comparatorChange_inv {s : State} (h : s.Inv) : (comparatorChange s).Inv := by
  unfold comparatorChange
  split
  · exact raisePir1_inv (by decide) h
  · exact h

theorem remember_inv {s : State} (a b : Byte) (c : Bool) (h : s.Inv) : (remember a b c s).Inv := { h with io := h.io }

theorem sample_inv {s : State} (h : s.Inv) : (sample s).Inv :=
  remember_inv _ _ _ (comparatorChange_inv (portChange_inv _ (intEdge_inv _ (captureEdge_inv _ (t1Edge_inv _ (t0Edge_inv _ h))))))

theorem endWrite_inv {s : State} (h : s.Inv) : (endWrite s).Inv := { h with t0 := h.t0 }

theorem finishStep_inv {s : State} (h : s.Inv) : (finishStep s).Inv := sample_inv (endWrite_inv (tickN_inv _ h))

theorem lapse_inv {s : State} (h : s.Inv) : (lapse s).Inv := { h with }

/-! ## Register access -/

/-- FERR and RX9D alone come from the byte at the head (R366). -/
theorem headStatus_getLsbD (b : RxByte) (v : Byte) {j : Nat} (h0 : j ≠ 0) (h2 : j ≠ 2) :
    (headStatus b v).getLsbD j = v.getLsbD j := by
  unfold headStatus setBit?
  split <;> simp [setBit_getLsbD, h0, h2]

theorem headStatus_keeps (b : RxByte) (u : Usart) : Usart.ok { u with rcsta := headStatus b u.rcsta } ↔ u.ok := by
  unfold Usart.ok
  rw [headStatus_getLsbD b _ (by decide) (by decide), headStatus_getLsbD b _ (by decide) (by decide)]

/-- What a write of RCSTA does to CREN, to OERR and to the stop of reception (R62, R366). -/
theorem writeRcsta_getLsbD (v : Byte) (s : State) :
    (writeRcsta v s).usart.rcsta.getLsbD 4 = v.getLsbD 4 ∧
      (writeRcsta v s).usart.rcsta.getLsbD 1 = (v.getLsbD 4 && s.usart.rcsta.getLsbD 1) ∧
      (writeRcsta v s).usart.rxStopped = (s.usart.rxStopped && !(v.getLsbD 4 && !s.usart.rcsta.getLsbD 1)) := by
  have m4 : (merge 0xF8 s.usart.rcsta v).getLsbD 4 = v.getLsbD 4 := by simp [merge]
  have m1 : (merge 0xF8 s.usart.rcsta v).getLsbD 1 = s.usart.rcsta.getLsbD 1 := by simp [merge]
  unfold writeRcsta
  refine ⟨?_, ?_, rfl⟩
  · dsimp only
    split
    · exact m4
    · rw [setBit_getLsbD (by decide)]
      exact m4
  · dsimp only
    split <;> rename_i k
    · rw [m1, k, Bool.true_and]
    · rw [setBit_getLsbD (by decide), Bool.eq_false_iff.2 k]
      rfl

theorem writeRcsta_ok {s : State} (v : Byte) (h : s.usart.ok) : (writeRcsta v s).usart.ok := by
  obtain ⟨h4, h1, hs⟩ := writeRcsta_getLsbD v s
  refine ⟨h.1, h.2.1, ?_, ?_⟩
  · rw [h1, hs]
    intro k
    simp only [Bool.and_eq_true] at k
    simp [h.2.2.1 k.2, k.2]
  · rw [h1, hs, h4]
    cases s.usart.rcsta.getLsbD 1 <;> cases v.getLsbD 4 <;> simp

theorem popRx_ok {u : Usart} (h : u.ok) : (popRx u).ok := by
  unfold popRx
  split
  · exact h
  · exact ⟨h.1, by simp, h.2.2⟩
  · rename_i b rest e
    have := h.2.1
    rw [e] at this
    exact (headStatus_keeps b { u with fifo := b :: rest, drained := true }).2
      ⟨h.1, by simp only [List.length_cons] at this ⊢; omega, h.2.2⟩

theorem readEffect_inv {s : State} (r : Reg) (h : s.Inv) : (readEffect r s).Inv := by
  unfold readEffect
  split
  · split
    · exact spend_inv h
    · exact { h with usart := popRx_ok h.usart }
  · exact { h with io := h.io }
  · exact { h with cmp := h.cmp }
  · exact h

theorem eeRead_inv {s : State} (h : s.Inv) : (eeRead s).Inv := by
  unfold eeRead
  split
  · exact { h with ee := h.ee }
  · exact { h with ee := h.ee }

theorem eeStart_inv {s : State} (wren : Bool) (h : s.Inv) : (eeStart wren s).Inv := by
  unfold eeStart
  split
  · refine { h with ee := ⟨h.ee.1, ?_, h.ee.2.2⟩ }
    rintro w ⟨⟩
    exact Nat.zero_le 2
  · exact { h with ee := h.ee }

theorem writeEecon1_inv {s : State} (v : Byte) (h : s.Inv) : (writeEecon1 v s).Inv := by
  have k : State.Inv { s with ee := { s.ee with con1 := v &&& 0x0C } } :=
    { h with ee := ⟨masked_and_zero (by decide) v, h.ee.2⟩ }
  unfold writeEecon1
  simp only
  repeat' split
  · exact eeRead_inv (eeStart_inv _ k)
  · exact eeRead_inv k
  · exact eeStart_inv _ k
  · exact k

theorem writeOption_inv {s : State} (v : Byte) (h : s.Inv) : (writeOption v s).Inv := by
  have k : State.Inv { s with option := v } := { h with }
  unfold writeOption
  simp only
  repeat' split
  · exact tmr0Tick_inv (spend_inv k)
  · exact spend_inv k
  · exact k

theorem writePortb_inv {s : State} (v : Byte) (h : s.Inv) : (writePortb v s).Inv := by
  rw [writePortb_eq]
  exact { h with io := h.io }

/-- A register write keeps the invariant, at an address that is one of the map's. -/
theorem memWrite_inv {s : State} {r : Reg} (hr : ∀ a, r = .gpr a → gprAddr a = true) (v : Byte) (h : s.Inv) :
    (memWrite r v s).Inv := by
  cases r <;> simp only [memWrite]
  case indf => exact h
  case none => exact h
  case tmr0 => exact { h with t0 := le_refl 2 }
  case pcl => exact { h with }
  case status => exact { h with }
  case fsr => exact { h with }
  case porta => exact { h with io := h.io }
  case portb => exact writePortb_inv v h
  case pclath => exact { h with }
  case intcon => exact { h with }
  case pir1 => exact { h with pir1 := merge_and_zero h.pir1 (by decide) }
  case tmr1l => exact { h with t1 := ⟨h.t1.1, Nat.zero_lt_succ _⟩ }
  case tmr1h => exact { h with t1 := ⟨h.t1.1, Nat.zero_lt_succ _⟩ }
  case t1con => exact { h with t1 := ⟨masked_and_zero (by decide) v, h.t1.2⟩ }
  case tmr2 => exact { h with t2 := ⟨h.t2.1, Nat.zero_lt_succ _, Nat.zero_lt_succ _⟩ }
  case t2con => exact { h with t2 := ⟨masked_and_zero (by decide) v, Nat.zero_lt_succ _, Nat.zero_lt_succ _⟩ }
  case ccpr1l => exact { h with ccp := h.ccp }
  case ccpr1h =>
    split
    · exact h
    · exact { h with ccp := h.ccp }
  case ccp1con =>
    refine { h with ccp := ⟨masked_and_zero (by decide) v, ?_⟩ }
    unfold writeCcp1con
    simp only
    split
    · exact h.ccp.2
    · exact Nat.zero_lt_succ _
  case rcsta => exact { h with usart := writeRcsta_ok v h.usart }
  case txreg => exact { h with pir1 := setBit_and_zero h.pir1 (by decide), usart := h.usart }
  case rcreg => exact { h with usart := h.usart }
  case cmcon => exact { h with cmp := h.cmp }
  case option => exact writeOption_inv v h
  case trisa => exact { h with io := masked_and_zero (k := 0xDF) (by decide) v }
  case trisb => exact { h with io := h.io }
  case pie1 => exact { h with pie1 := masked_and_zero (by decide) v }
  case pcon => exact { h with pcon := masked_and_zero (by decide) v }
  case pr2 => exact { h with t2 := h.t2 }
  case txsta => exact { h with usart := ⟨masked_and_zero (by decide) v, h.usart.2⟩ }
  case spbrg => exact { h with usart := h.usart }
  case eedata => exact { h with ee := h.ee }
  case eeadr => exact { h with ee := h.ee }
  case eecon1 => exact writeEecon1_inv v h
  case eecon2 => exact h
  case vrcon => exact { h with cmp := masked_and_zero (k := 0xEF) (by decide) v }
  case gpr a =>
    refine { h with ram_wf := Memory.write_wf h.ram_wf, ram_addr := fun c hc => ?_ }
    obtain rfl | hc := Memory.mem_write hc
    · exact hr a rfl
    · exact h.ram_addr c hc

theorem writeBack_inv {s : State} {r : Reg} (hr : ∀ a, r = .gpr a → gprAddr a = true) (v : Byte) (h : s.Inv) :
    (writeBack r v s).Inv := { memWrite_inv hr v h with }

/-- An operand's cell is in the data memory map (R32). -/
theorem operandReg_gpr (f : BitVec 7) (s : State) : ∀ a, operandReg f s = .gpr a → gprAddr a = true := by
  have h : ∀ x : DataAddr, (match resolve x with
      | .gpr a => gprAddr a
      | _ => true) = true := by decide +kernel
  intro a ha
  have := h (ea f s)
  rw [show resolve (ea f s) = .gpr a from ha] at this
  exact this

theorem putFlags_inv {s : State} (u : FlagUpdate) (b : Bool) (h : s.Inv) : (putFlags u b s).Inv := by
  unfold putFlags
  repeat' split
  · exact h
  · exact { h with }
  · exact { h with }

theorem advance_inv {s : State} (h : s.Inv) : (advance s).Inv := { h with }

theorem skip_inv {s : State} (h : s.Inv) : (skip s).Inv := { h with }

theorem jump_inv {s : State} (t : CodeAddr) (h : s.Inv) : (jump t s).Inv := { h with }

theorem push_inv {s : State} (v : CodeAddr) (h : s.Inv) : (push v s).Inv := { h with }

theorem pop_inv {s : State} (h : s.Inv) : (pop s).Inv := { h with }

theorem clearWdt_inv {s : State} (h : s.Inv) : (clearWdt s).Inv := { h with t0 := h.t0 }

theorem interruptEntry_inv {s : State} (h : s.Inv) : (interruptEntry s).Inv :=
  { h with ee := h.ee }

/-! ## Instruction shapes -/

theorem finish_inv {s : State} (p : Bool) (h : s.Inv) : (finish p s).Inv := by
  unfold finish
  split
  · exact h
  · exact advance_inv h

theorem finishSkip_inv {s : State} (p t : Bool) (h : s.Inv) : (finishSkip p t s).Inv := by
  unfold finishSkip
  repeat' split
  · exact h
  · exact skip_inv h
  · exact advance_inv h

theorem fileEffect_inv {s : State} (f : BitVec 7) (d : Dest) (fn : Byte → Alu) (h : s.Inv) : (fileEffect f d fn s).Inv := by
  refine putFlags_inv _ _ ?_
  cases d with
  | toW => exact { readEffect_inv _ h with }
  | toF => exact writeBack_inv (operandReg_gpr f s) _ (readEffect_inv _ h)

theorem fileOp_inv {s : State} (f : BitVec 7) (d : Dest) (fn : Byte → Alu) (h : s.Inv) : (fileOp f d fn s).Inv :=
  finish_inv _ (fileEffect_inv f d fn h)

theorem fileSkip_inv {s : State} (f : BitVec 7) (d : Dest) (fn : Byte → Byte) (h : s.Inv) : (fileSkip f d fn s).Inv :=
  finishSkip_inv _ _ (fileEffect_inv f d _ h)

theorem fileWrite_inv {s : State} (f : BitVec 7) (v : Byte) (h : s.Inv) : (fileWrite f v s).Inv :=
  memWrite_inv (operandReg_gpr f s) v h

theorem bitOp_inv {s : State} (f : BitVec 7) (b : BitVec 3) (v : Bool) (h : s.Inv) : (bitOp f b v s).Inv :=
  fileOp_inv f .toF _ h

theorem bitSkip_inv {s : State} (f : BitVec 7) (b : BitVec 3) (v : Bool) (h : s.Inv) : (bitSkip f b v s).Inv :=
  finishSkip_inv _ _ (readEffect_inv _ h)

theorem literalOp_inv {s : State} (a : Alu) (h : s.Inv) : (literalOp a s).Inv :=
  advance_inv (putFlags_inv _ _ { h with })

/-! ## Resets and events -/

theorem resetCells_ok {e : Eeprom} (v : Byte) (h : e.ok) :
    Memory.wf eeBlank (resetCells v e) = true ∧ ∀ c ∈ resetCells v e, c.1 < 128 := by
  unfold resetCells
  split
  · exact h.2.2
  · rename_i w e
    refine ⟨Memory.write_wf h.2.2.1, fun c hc => ?_⟩
    obtain rfl | hc := Memory.mem_write hc
    · exact w.addr.isLt
    · exact h.2.2.2 c hc

/-- A value whose reserved bits a kernel evaluation finds 0. -/
theorem reset_masks :
    State.reset.cmp.ok ∧ State.reset.io.ok ∧ State.reset.usart.txsta &&& 0x08 = 0 ∧ State.reset.ee.con1 &&& 0xF3 = 0 ∧
      State.reset.pcon &&& 0xF4 = 0 := by
  unfold Comparators.ok Ports.ok
  decide

theorem powerOnReset_inv {s : State} (v : Byte) (h : s.Inv) : (powerOnReset v s).Inv where
  ram_wf := rfl
  ram_addr := fun _ hc => nomatch hc
  prog_rising := h.prog_rising
  prog_addr := h.prog_addr
  pir1 := (by decide : (0 : Byte) &&& 0x28 = 0)
  pie1 := (by decide : (0 : Byte) &&& 0x08 = 0)
  pcon := reset_masks.2.2.2.2
  t0 := Nat.zero_le 2
  t1 := ⟨(by decide : (0 : Byte) &&& 0xC0 = 0), Nat.zero_lt_succ _⟩
  t2 := ⟨(by decide : (0 : Byte) &&& 0x80 = 0), Nat.zero_lt_succ _, Nat.zero_lt_succ _⟩
  ccp := ⟨(by decide : (0 : Byte) &&& 0xC0 = 0), Nat.zero_lt_succ _⟩
  usart := ⟨reset_masks.2.2.1, Nat.zero_le 2, fun k => absurd k (by decide : ¬State.reset.usart.rcsta.getLsbD 1 = true),
    fun k => (Bool.false_ne_true k).elim⟩
  cmp := reset_masks.1
  ee := ⟨reset_masks.2.2.2.1, fun _ hw => (Option.some_ne_none _ hw.symm).elim, resetCells_ok v h.ee⟩
  io := reset_masks.2.1
  awake := fun hp => (Bool.false_ne_true hp).elim

theorem resetPcon_ok {s : State} (c : ResetCause) (h : s.pcon &&& 0xF4 = 0) : resetPcon c s &&& 0xF4 = 0 := by
  cases c
  · exact reset_masks.2.2.2.2
  · exact and_or_zero (and_zero_of_and h) (by decide)
  · exact and_or_zero (and_zero_of_and h) (by decide)
  · exact and_or_zero (and_zero_of_and h) (by decide)

theorem otherReset_inv {s : State} (c : ResetCause) (h : s.Inv) : (otherReset c s).Inv :=
  { h with
    pir1 := (by decide : (0 : Byte) &&& 0x28 = 0)
    pie1 := (by decide : (0 : Byte) &&& 0x08 = 0)
    pcon := resetPcon_ok c h.pcon
    t0 := Nat.zero_le 2
    t2 := ⟨(by decide : (0 : Byte) &&& 0x80 = 0), Nat.zero_lt_succ _, Nat.zero_lt_succ _⟩
    ccp := ⟨(by decide : (0 : Byte) &&& 0xC0 = 0), Nat.zero_lt_succ _⟩
    usart :=
      ⟨reset_masks.2.2.1, Nat.zero_le 2, fun k => by
        change (_ &&& 0x01#8 : Byte).getLsbD 1 = true at k
        rw [BitVec.getLsbD_and, show (0x01#8).getLsbD 1 = false from rfl, Bool.and_false] at k
        exact (Bool.false_ne_true k).elim, fun k => (Bool.false_ne_true k).elim⟩
    cmp := reset_masks.1
    ee := by
      refine ⟨?_, fun _ hw => (Option.some_ne_none _ hw.symm).elim, resetCells_ok _ h.ee⟩
      simp only [otherReset]
      split
      · rfl
      · exact masked_and_zero (by decide) _
    io := (by decide : (0b11011111#8) &&& 0x20 = 0)
    awake := fun hp => (Bool.false_ne_true hp).elim }

theorem takeReset_inv {s : State} (c : ResetCause) (h : s.Inv) : (takeReset c s).Inv := by
  unfold takeReset
  simp only
  split
  · exact remember_inv _ _ _ (powerOnReset_inv _ h)
  · exact remember_inv _ _ _ (otherReset_inv c h)

theorem rxPush_ok {u : Usart} (b : RxByte) (h : u.ok) (hl : u.fifo.length < 2) : (rxPush b u).ok := by
  unfold rxPush
  split
  · exact (headStatus_keeps b { u with fifo := [b] }).2 ⟨h.1, by simp, h.2.2⟩
  · exact ⟨h.1, by simp only [List.length_append, List.length_cons, List.length_nil]; omega, h.2.2⟩

theorem receiveFrame_ok {u : Usart} (bits : BitVec 9) (stop : Bool) (h : u.ok) : (receiveFrame bits stop u).ok := by
  unfold receiveFrame
  simp only
  split
  · exact h
  · split
    · exact ⟨h.1, h.2.1, fun _ => rfl, fun _ _ => setBit_getLsbD (by decide) true _⟩
    · exact rxPush_ok _ h (by simp only; omega)

theorem sendFrame_ok {u : Usart} (h : u.ok) : (sendFrame u).ok := by
  unfold sendFrame
  split <;> exact h

theorem eeComplete_inv {s : State} (h : s.Inv) : (eeComplete s).Inv := by
  unfold eeComplete
  split
  · exact h
  · rename_i w hw
    split
    · refine raisePir1_inv (by decide) { h with ee := ⟨h.ee.1, ?_, Memory.write_wf h.ee.2.2.1, ?_⟩ }
      · exact fun _ hw => (Option.some_ne_none _ hw.symm).elim
      · intro c hc
        obtain rfl | hc := Memory.mem_write hc
        · exact w.addr.isLt
        · exact h.ee.2.2.2 c hc
    · exact h

theorem wdtTimeout_inv {s : State} (h : s.Inv) : (wdtTimeout s).Inv := by
  unfold wdtTimeout
  split
  · exact { h with awake := fun _ => rfl }
  · exact takeReset_inv .wdt h

/-- An event of the environment keeps the invariant. -/
theorem applyEvent_inv {s : State} (e : EnvEvent) (h : s.Inv) : (applyEvent e s).Inv := by
  cases e <;> simp only [applyEvent]
  case pins => exact sample_inv { h with io := h.io }
  case crystal => exact sample_inv { h with io := h.io }
  case comparators => exact sample_inv { h with cmp := h.cmp }
  case falseCmif =>
    split
    · exact { h with pir1 := setBit_and_zero h.pir1 (by decide) }
    · exact h
  case frame =>
    split
    · exact { h with usart := receiveFrame_ok _ _ h.usart }
    · exact h
  case frameSent =>
    split
    · exact h
    · exact { h with usart := sendFrame_ok h.usart }
  case eeDone => exact eeComplete_inv h
  case wdtClock =>
    split
    · exact { h with t0 := h.t0 }
    · exact h
  case wdtTimeout =>
    split
    · exact wdtTimeout_inv h
    · exact h
  case mclr =>
    split
    · exact takeReset_inv _ h
    · exact h
  case brownOut =>
    split
    · exact takeReset_inv _ h
    · exact h
  case powerOn => exact takeReset_inv _ h

theorem eventStep_inv {s : State} (race : Bool) (e : EnvEvent) (h : s.Inv) : (eventStep race e s).Inv := by
  refine lapse_inv (applyEvent_inv e ?_)
  split
  · exact h
  · exact { h with }

end Sys2Proof.Machine
end

