-- ==== Sys2Proof/Laws/Operands.lean ====
section
/-! SUPPORT. The shapes instructions share, as whole next states. -/

namespace Sys2Proof.Machine

/-- An `f, d` instruction whose flags turn STATUS into `g` of itself. -/
theorem fileOp_eq_afterFile (f : BitVec 7) (d : Dest) (fn : Byte → Alu) (s : State) (g : Byte → Byte)
    (h : ∀ x, putFlags (fn (readValue (operandReg f s) s)).flags (d == .toF && operandReg f s == .status) x =
      { x with status := g x.status }) :
    fileOp f d fn s =
      afterFile d (operandReg f s) (fn (readValue (operandReg f s) s)).value g (readEffect (operandReg f s) s) := by
  simp only [fileOp, fileEffect, h]
  cases d with
  | toW => rfl
  | toF =>
    by_cases hp : operandReg f s = .pcl
    · simp [finish, wrotePcl, putResult, afterFile, hp, writeBack, memWrite, jump, rmwOf]
    · simp [finish, wrotePcl, putResult, afterFile, hp, writeBack, advance, memWrite_pc hp]

/-- An `f, d` instruction that affects no flag. -/
theorem fileOp_plain (f : BitVec 7) (d : Dest) (fn : Byte → Byte) (s : State) :
    fileOp f d (fun v => plain (fn v)) s =
      afterFile d (operandReg f s) (fn (readValue (operandReg f s) s)) id (readEffect (operandReg f s) s) :=
  fileOp_eq_afterFile f d _ s id fun x => by simp [plain]

/-- An `f, d` instruction that affects all three flags. -/
theorem fileOp_all (f : BitVec 7) (d : Dest) (fn : Byte → Alu) (s : State) (c dc z : Bool)
    (h : (fn (readValue (operandReg f s) s)).flags = ⟨some c, some dc, some z⟩) :
    fileOp f d fn s =
      afterFile d (operandReg f s) (fn (readValue (operandReg f s) s)).value (fun st => statusOf st z dc c)
        (readEffect (operandReg f s) s) :=
  fileOp_eq_afterFile f d fn s _ fun x => by rw [h, putFlags_all]

theorem plainDest_flag {d : Dest} {r : Reg} (h : plainDest d r) : (d == .toF && r == .status) = false := by
  cases d
  · rfl
  · simpa using h rfl

/-- An `f, d` instruction that affects Z alone, its destination not STATUS. -/
theorem fileOp_withZ (f : BitVec 7) (d : Dest) (fn : Byte → Byte) (s : State) (h : plainDest d (operandReg f s)) :
    fileOp f d (fun v => withZ (fn v)) s =
      afterFile d (operandReg f s) (fn (readValue (operandReg f s) s))
        (fun st => statusOf st (decide (fn (readValue (operandReg f s) s) = 0)) (st.getLsbD 1) (st.getLsbD 0))
        (readEffect (operandReg f s) s) :=
  fileOp_eq_afterFile f d _ s _ fun x => by
    rw [plainDest_flag h, putFlags_plain]
    simp [withZ, zeroOf, apply_zero, beq_eq_decide]

/-- An `f, d` instruction that affects C alone, its destination not STATUS. -/
theorem fileOp_carry (f : BitVec 7) (d : Dest) (fn : Byte → Alu) (s : State) (c : Bool)
    (h : plainDest d (operandReg f s)) (hc : (fn (readValue (operandReg f s) s)).flags = ⟨some c, none, none⟩) :
    fileOp f d fn s =
      afterFile d (operandReg f s) (fn (readValue (operandReg f s) s)).value
        (fun st => statusOf st (st.getLsbD 2) (st.getLsbD 1) c) (readEffect (operandReg f s) s) :=
  fileOp_eq_afterFile f d fn s _ fun x => by
    rw [plainDest_flag h, putFlags_plain, hc]
    simp [apply_carry]

/-- The program counter during the read of an operand is the instruction's. -/
theorem afterFile_pc_toW (r : Reg) (res : Byte) (g : Byte → Byte) (s : State) :
    (afterFile .toW r res g s).pc = s.pc + 1 := rfl

/-- A DECFSZ or INCFSZ whose destination is not PCL. -/
theorem fileSkip_eq (f : BitVec 7) (d : Dest) (fn : Byte → Byte) (s : State)
    (h : d = .toF → operandReg f s ≠ .pcl) :
    fileSkip f d fn s =
      (let t := afterFile d (operandReg f s) (fn (operandValue f s)) id (readEffect (operandReg f s) s)
       if fn (operandValue f s) = 0 then { t with pc := s.pc + 2, cycles := 2 } else t) := by
  have hp : wrotePcl d (operandReg f s) = false := by
    cases d
    · rfl
    · simpa [wrotePcl] using h rfl
  simp only [fileSkip, hp, finishSkip, fileEffect, plain, putFlags_none, Bool.false_eq_true, if_false, beq_iff_eq]
  cases d with
  | toW => split <;> simp [putResult, afterFile, skip, advance, operandValue]
  | toF =>
    have := h rfl
    split <;> simp [putResult, afterFile, skip, advance, operandValue, writeBack, this, memWrite_pc this]

end Sys2Proof.Machine
end

