-- ==== Sys2Proof/Laws/PerInstr.lean ====
section
/-! SUPPORT. Statements for all instructions, one lemma per constructor. -/

namespace Sys2Proof.Laws

/-- Every field of an instruction is in the range its format gives (30_encoding.md R148, R149): the widths of the operands
of `Instr` leave no other value. -/
def OperandsInRange.Statement (i : Instr) : Prop := i.WellFormed

theorem fileOk_of_field (f : BitVec 7) : Operands.fileOk f.toNat = true := decide_eq_true (Nat.le_of_lt_succ f.isLt)

theorem destOk_of_field (d : Dest) : Operands.destOk d.toNat = true := by cases d <;> rfl

theorem bitOk_of_field (b : BitVec 3) : Operands.bitOk b.toNat = true := decide_eq_true (Nat.le_of_lt_succ b.isLt)

theorem litOk_of_field (k : Byte) : Operands.litOk k.toNat = true := decide_eq_true (Nat.le_of_lt_succ k.isLt)

theorem targetOk_of_field (k : BitVec 11) : Operands.targetOk k.toNat = true := decide_eq_true (Nat.le_of_lt_succ k.isLt)

theorem fileDest_inRange (f : BitVec 7) (d : Dest) : (Operands.fileDest f.toNat d.toNat).wellFormed = true :=
  Bool.and_eq_true_iff.2 ⟨fileOk_of_field f, destOk_of_field d⟩

theorem fileBit_inRange (f : BitVec 7) (b : BitVec 3) : (Operands.fileBit f.toNat b.toNat).wellFormed = true :=
  Bool.and_eq_true_iff.2 ⟨fileOk_of_field f, bitOk_of_field b⟩

theorem OperandsInRange.addwf (f : BitVec 7) (d : Dest) : OperandsInRange.Statement (.addwf f d) := fileDest_inRange f d

theorem OperandsInRange.andwf (f : BitVec 7) (d : Dest) : OperandsInRange.Statement (.andwf f d) := fileDest_inRange f d

theorem OperandsInRange.comf (f : BitVec 7) (d : Dest) : OperandsInRange.Statement (.comf f d) := fileDest_inRange f d

theorem OperandsInRange.decf (f : BitVec 7) (d : Dest) : OperandsInRange.Statement (.decf f d) := fileDest_inRange f d

theorem OperandsInRange.decfsz (f : BitVec 7) (d : Dest) : OperandsInRange.Statement (.decfsz f d) := fileDest_inRange f d

theorem OperandsInRange.incf (f : BitVec 7) (d : Dest) : OperandsInRange.Statement (.incf f d) := fileDest_inRange f d

theorem OperandsInRange.incfsz (f : BitVec 7) (d : Dest) : OperandsInRange.Statement (.incfsz f d) := fileDest_inRange f d

theorem OperandsInRange.iorwf (f : BitVec 7) (d : Dest) : OperandsInRange.Statement (.iorwf f d) := fileDest_inRange f d

theorem OperandsInRange.movf (f : BitVec 7) (d : Dest) : OperandsInRange.Statement (.movf f d) := fileDest_inRange f d

theorem OperandsInRange.rlf (f : BitVec 7) (d : Dest) : OperandsInRange.Statement (.rlf f d) := fileDest_inRange f d

theorem OperandsInRange.rrf (f : BitVec 7) (d : Dest) : OperandsInRange.Statement (.rrf f d) := fileDest_inRange f d

theorem OperandsInRange.subwf (f : BitVec 7) (d : Dest) : OperandsInRange.Statement (.subwf f d) := fileDest_inRange f d

theorem OperandsInRange.swapf (f : BitVec 7) (d : Dest) : OperandsInRange.Statement (.swapf f d) := fileDest_inRange f d

theorem OperandsInRange.xorwf (f : BitVec 7) (d : Dest) : OperandsInRange.Statement (.xorwf f d) := fileDest_inRange f d

theorem OperandsInRange.clrf (f : BitVec 7) : OperandsInRange.Statement (.clrf f) := fileOk_of_field f

theorem OperandsInRange.movwf (f : BitVec 7) : OperandsInRange.Statement (.movwf f) := fileOk_of_field f

theorem OperandsInRange.bcf (f : BitVec 7) (b : BitVec 3) : OperandsInRange.Statement (.bcf f b) := fileBit_inRange f b

theorem OperandsInRange.bsf (f : BitVec 7) (b : BitVec 3) : OperandsInRange.Statement (.bsf f b) := fileBit_inRange f b

theorem OperandsInRange.btfsc (f : BitVec 7) (b : BitVec 3) : OperandsInRange.Statement (.btfsc f b) := fileBit_inRange f b

theorem OperandsInRange.btfss (f : BitVec 7) (b : BitVec 3) : OperandsInRange.Statement (.btfss f b) := fileBit_inRange f b

theorem OperandsInRange.addlw (k : Byte) : OperandsInRange.Statement (.addlw k) := litOk_of_field k

theorem OperandsInRange.andlw (k : Byte) : OperandsInRange.Statement (.andlw k) := litOk_of_field k

theorem OperandsInRange.iorlw (k : Byte) : OperandsInRange.Statement (.iorlw k) := litOk_of_field k

theorem OperandsInRange.movlw (k : Byte) : OperandsInRange.Statement (.movlw k) := litOk_of_field k

theorem OperandsInRange.retlw (k : Byte) : OperandsInRange.Statement (.retlw k) := litOk_of_field k

theorem OperandsInRange.sublw (k : Byte) : OperandsInRange.Statement (.sublw k) := litOk_of_field k

theorem OperandsInRange.xorlw (k : Byte) : OperandsInRange.Statement (.xorlw k) := litOk_of_field k

theorem OperandsInRange.call (k : BitVec 11) : OperandsInRange.Statement (.call k) := targetOk_of_field k

theorem OperandsInRange.goto (k : BitVec 11) : OperandsInRange.Statement (.goto k) := targetOk_of_field k

theorem OperandsInRange.clrw : OperandsInRange.Statement .clrw := rfl

theorem OperandsInRange.nop : OperandsInRange.Statement .nop := rfl

theorem OperandsInRange.clrwdt : OperandsInRange.Statement .clrwdt := rfl

theorem OperandsInRange.retfie : OperandsInRange.Statement .retfie := rfl

theorem OperandsInRange.ret : OperandsInRange.Statement .ret := rfl

theorem OperandsInRange.sleep : OperandsInRange.Statement .sleep := rfl

theorem OperandsInRange.option : OperandsInRange.Statement .option := rfl

end Sys2Proof.Laws
end

