-- ==== Sys2Proof/Tests/Slice0.lean ====
section
/-! SUPPORT. Tests: small facts with expected results from the spec (95_test_vectors.md, whose vector a comment names), and a
state and operands that meet the hypotheses of each statement. -/

open Sys2Proof Sys2Proof.Machine

/-! ## WellFormed refuses what each of its checks refuses -/

theorem test_wf_file : Operands.wellFormed (.file 127) = true ∧ Operands.wellFormed (.file 128) = false := by decide
theorem test_wf_fileDest_file : Operands.wellFormed (.fileDest 128 0) = false := by decide
theorem test_wf_fileDest_dest :
    Operands.wellFormed (.fileDest 0 1) = true ∧ Operands.wellFormed (.fileDest 0 2) = false := by decide
theorem test_wf_fileBit_file : Operands.wellFormed (.fileBit 128 0) = false := by decide
theorem test_wf_fileBit_bit :
    Operands.wellFormed (.fileBit 0 7) = true ∧ Operands.wellFormed (.fileBit 0 8) = false := by decide
theorem test_wf_lit : Operands.wellFormed (.lit 255) = true ∧ Operands.wellFormed (.lit 256) = false := by decide
theorem test_wf_target : Operands.wellFormed (.target 2047) = true ∧ Operands.wellFormed (.target 2048) = false := by
  decide
theorem test_wf_none : Operands.wellFormed .none = true := by decide

/-! ## Each constructor's decoding, from words written out from TABLE 15-2's patterns (30_encoding.md R150, R151, S20) -/

theorem test_decode_addwf : decode 0b00011110100000#14 = some (.addwf 0x20 .toF) := by decide
theorem test_decode_andwf : decode 0b00010100100000#14 = some (.andwf 0x20 .toW) := by decide
theorem test_decode_clrf : decode 0b00000110100000#14 = some (.clrf 0x20) := by decide
theorem test_decode_clrw : decode 0b00000100000011#14 = some .clrw := by decide
theorem test_decode_comf : decode 0b00100110100000#14 = some (.comf 0x20 .toF) := by decide
theorem test_decode_decf : decode 0b00001110100000#14 = some (.decf 0x20 .toF) := by decide
theorem test_decode_decfsz : decode 0b00101100100000#14 = some (.decfsz 0x20 .toW) := by decide
theorem test_decode_incf : decode 0b00101010100000#14 = some (.incf 0x20 .toF) := by decide
theorem test_decode_incfsz : decode 0b00111110100000#14 = some (.incfsz 0x20 .toF) := by decide
theorem test_decode_iorwf : decode 0b00010000100000#14 = some (.iorwf 0x20 .toW) := by decide
theorem test_decode_movf : decode 0b00100000000010#14 = some (.movf 0x02 .toW) := by decide
theorem test_decode_movwf : decode 0b00000011111111#14 = some (.movwf 0x7F) := by decide
theorem test_decode_rlf : decode 0b00110110100000#14 = some (.rlf 0x20 .toF) := by decide
theorem test_decode_rrf : decode 0b00110000100000#14 = some (.rrf 0x20 .toW) := by decide
theorem test_decode_subwf : decode 0b00001010100000#14 = some (.subwf 0x20 .toF) := by decide
theorem test_decode_swapf : decode 0b00111000100000#14 = some (.swapf 0x20 .toW) := by decide
theorem test_decode_xorwf : decode 0b00011010100000#14 = some (.xorwf 0x20 .toF) := by decide
theorem test_decode_bcf : decode 0b01001110100000#14 = some (.bcf 0x20 7) := by decide
theorem test_decode_bsf : decode 0b01011010000011#14 = some (.bsf 0x03 5) := by decide
theorem test_decode_btfsc : decode 0b01100010100000#14 = some (.btfsc 0x20 1) := by decide
theorem test_decode_btfss : decode 0b01110100000011#14 = some (.btfss 0x03 2) := by decide
theorem test_decode_andlw : decode 0b11100101011111#14 = some (.andlw 0x5F) := by decide
theorem test_decode_call : decode 0b10001001010000#14 = some (.call 0x250) := by decide
theorem test_decode_clrwdt : decode 0b00000001100100#14 = some .clrwdt := by decide
theorem test_decode_goto : decode 0b10100100100011#14 = some (.goto 0x123) := by decide
theorem test_decode_iorlw : decode 0b11100000110101#14 = some (.iorlw 0x35) := by decide
theorem test_decode_retfie : decode 0b00000000001001#14 = some .retfie := by decide
theorem test_decode_ret : decode 0b00000000001000#14 = some .ret := by decide
theorem test_decode_sleep : decode 0b00000001100011#14 = some .sleep := by decide
theorem test_decode_xorlw : decode 0b11101010101111#14 = some (.xorlw 0xAF) := by decide
theorem test_decode_option : decode 0b00000001100010#14 = some .option := by decide
/-- The four words of NOP, TABLE 15-2's "0xx0 0000" (R153). -/
theorem test_decode_nop :
    decode 0b00000000000000#14 = some .nop ∧ decode 0b00000000100000#14 = some .nop ∧
      decode 0b00000001000000#14 = some .nop ∧ decode 0b00000001100000#14 = some .nop := by decide
/-- Words that differ in don't-care bits (V13, V14). -/
theorem test_decode_literal_dontcare :
    decode 0b11000001011010#14 = some (.movlw 0x5A) ∧ decode 0b11001101011010#14 = some (.movlw 0x5A) ∧
      decode 0b11010001000001#14 = some (.retlw 0x41) ∧ decode 0b11011101000001#14 = some (.retlw 0x41) ∧
      decode 0b11110000000010#14 = some (.sublw 0x02) ∧ decode 0b11110100000010#14 = some (.sublw 0x02) ∧
      decode 0b11111011111111#14 = some (.addlw 0xFF) ∧ decode 0b11111111111111#14 = some (.addlw 0xFF) := by decide
/-- V3, V15: no CLRW at 0100h, no TRIS at 0065h. -/
theorem test_decode_unlisted :
    decode 0b00000100000000#14 = none ∧ decode 0b00000001100101#14 = none ∧
      decode 0b11101100000000#14 = none := by decide
theorem test_tableWord :
    decodeTableWord 14 0x2923 = some (.goto 0x123) ∧ decodeTableWord 16 0x2923 = some (.goto 0x123) ∧
      decodeTableWord 16 0x4000 = none := by decide

/-! ## Instructions -/

/-- The state before a vector: at 0100h, REG is the byte at 20h. -/
def before (w reg status : Byte) : State :=
  { State.reset with pc := 0x100, w := w, status := status, ram := Memory.write ramBlank [] 0x20 reg }

/-- What a vector compares: W, REG, STATUS. -/
def seen : Result → Option (Byte × Byte × Byte)
  | .next t => some (t.w, Memory.read ramBlank t.ram 0x20, t.status)
  | _ => none

/-- What a vector of control flow compares: PC, the top of the stack, the cycles. -/
def flow : Result → Option (CodeAddr × CodeAddr × Nat)
  | .next t => some (t.pc, tos t, t.cycles)
  | _ => none

/-- V1. -/
theorem test_addwf_wrap : seen (exec (.addwf 0x20 .toF) (before 0x01 0xFF 0x18)) = some (0x01, 0x00, 0x1F) := by decide
/-- V1: the sum is FF + FF, PCLATH gives the upper bits. -/
theorem test_addwf_pcl :
    flow (exec (.addwf 0x02 .toF) ({ before 0xFF 0 0x18 with pc := 0x1FE, pclath := 1 })) = some (0x1FE, 0, 2) := by decide
/-- V2. -/
theorem test_andwf : seen (exec (.andwf 0x20 .toW) (before 0x0F 0xF0 0x18)) = some (0x00, 0xF0, 0x1C) := by decide
/-- V3. -/
theorem test_clrf : seen (exec (.clrf 0x20) (before 0x33 0x5A 0x1B)) = some (0x33, 0x00, 0x1F) := by decide
/-- V3. -/
theorem test_clrw : seen (exec (.clrw) (before 0x5A 0x11 0x18)) = some (0x00, 0x11, 0x1C) := by decide
/-- V4. -/
theorem test_comf : seen (exec (.comf 0x20 .toF) (before 0x77 0x13 0x18)) = some (0x77, 0xEC, 0x18) := by decide
/-- V5. -/
theorem test_decf : seen (exec (.decf 0x20 .toF) (before 0x00 0x00 0x1F)) = some (0x00, 0xFF, 0x1B) := by decide
/-- V5. -/
theorem test_incf : seen (exec (.incf 0x20 .toW) (before 0x00 0x7F 0x1C)) = some (0x80, 0x7F, 0x18) := by decide
/-- V6. -/
theorem test_decfsz_flags : seen (exec (.decfsz 0x20 .toF) (before 0x00 0x01 0x18)) = some (0x00, 0x00, 0x18) := by decide
/-- V6. -/
theorem test_decfsz_skip :
    flow (exec (.decfsz 0x20 .toF) (before 0 1 0x18)) = some (0x102, 0, 2) := by decide
/-- V6. -/
theorem test_incfsz_skip :
    flow (exec (.incfsz 0x20 .toF) (before 0 0xFF 0x18)) = some (0x102, 0, 2) := by decide
/-- V6. -/
theorem test_incfsz_noskip :
    flow (exec (.incfsz 0x20 .toF) (before 0 0xFE 0x18)) = some (0x101, 0, 1) := by decide
/-- V7, S9 as corrected by C5. -/
theorem test_iorwf : seen (exec (.iorwf 0x20 .toW) (before 0x91 0x13 0x1C)) = some (0x93, 0x13, 0x18) := by decide
/-- V7. -/
theorem test_xorwf : seen (exec (.xorwf 0x20 .toF) (before 0xB5 0xAF 0x18)) = some (0xB5, 0x1A, 0x18) := by decide
/-- V8. -/
theorem test_movf : seen (exec (.movf 0x20 .toF) (before 0x12 0x80 0x1C)) = some (0x12, 0x80, 0x18) := by decide
/-- V8. -/
theorem test_movf_pcl : seen (exec (.movf 0x02 .toW) (before 0x12 0x00 0x18)) = some (0x01, 0x00, 0x18) := by decide
/-- V8. -/
theorem test_movwf : seen (exec (.movwf 0x20) (before 0x4F 0xFF 0x1F)) = some (0x4F, 0x4F, 0x1F) := by decide
/-- V8. -/
theorem test_movwf_status : seen (exec (.movwf 0x03) (before 0xFF 0x00 0x00)) = some (0xFF, 0x00, 0xE7) := by decide
/-- V8. -/
theorem test_nop : seen (exec (.nop) (before 0xAA 0x11 0x1F)) = some (0xAA, 0x11, 0x1F) := by decide
/-- V9. -/
theorem test_rlf : seen (exec (.rlf 0x20 .toF) (before 0x00 0xE6 0x18)) = some (0x00, 0xCC, 0x19) := by decide
/-- V9: a zero result does not set Z. -/
theorem test_rlf_zero : seen (exec (.rlf 0x20 .toW) (before 0x55 0x80 0x18)) = some (0x00, 0x80, 0x19) := by decide
/-- V9. -/
theorem test_rrf : seen (exec (.rrf 0x20 .toW) (before 0x00 0x01 0x19)) = some (0x80, 0x01, 0x19) := by decide
/-- V10. -/
theorem test_subwf : seen (exec (.subwf 0x20 .toW) (before 0x01 0x10 0x18)) = some (0x0F, 0x10, 0x19) := by decide
/-- V10. -/
theorem test_subwf_borrow : seen (exec (.subwf 0x20 .toF) (before 0x02 0x01 0x18)) = some (0x02, 0xFF, 0x18) := by decide
/-- V11. -/
theorem test_swapf : seen (exec (.swapf 0x20 .toF) (before 0x00 0xA5 0x1F)) = some (0x00, 0x5A, 0x1F) := by decide
/-- V12, S1. -/
theorem test_bcf : seen (exec (.bcf 0x20 7) (before 0x00 0xC7 0x18)) = some (0x00, 0x47, 0x18) := by decide
/-- V12. -/
theorem test_bsf_status : seen (exec (.bsf 0x03 5) (before 0x00 0x00 0x18)) = some (0x00, 0x00, 0x38) := by decide
/-- V12. -/
theorem test_btfsc :
    flow (exec (.btfsc 0x20 1) (before 0 0 0x18)) = some (0x102, 0, 2) := by decide
/-- V12. -/
theorem test_btfss :
    flow (exec (.btfss 0x20 1) (before 0 0xFD 0x18)) = some (0x101, 0, 1) := by decide
/-- V13. -/
theorem test_addlw : seen (exec (.addlw 0x0F) (before 0x01 0x00 0x18)) = some (0x10, 0x00, 0x1A) := by decide
/-- V13. -/
theorem test_andlw : seen (exec (.andlw 0x5F) (before 0xA3 0x00 0x18)) = some (0x03, 0x00, 0x18) := by decide
/-- V13, S7. -/
theorem test_iorlw : seen (exec (.iorlw 0x35) (before 0x9A 0x00 0x1C)) = some (0xBF, 0x00, 0x18) := by decide
/-- V13. -/
theorem test_movlw : seen (exec (.movlw 0x5A) (before 0x00 0x00 0x1F)) = some (0x5A, 0x00, 0x1F) := by decide
/-- V13. -/
theorem test_sublw : seen (exec (.sublw 0x02) (before 0x03 0x00 0x18)) = some (0xFF, 0x00, 0x18) := by decide
/-- V13. -/
theorem test_sublw_dc : seen (exec (.sublw 0x10) (before 0x01 0x00 0x18)) = some (0x0F, 0x00, 0x19) := by decide
/-- V13. -/
theorem test_xorlw : seen (exec (.xorlw 0xFF) (before 0xFF 0x00 0x18)) = some (0x00, 0x00, 0x1C) := by decide
/-- V14. -/
theorem test_goto :
    flow (exec (.goto 0x123) ({ before 0 0 0x18 with pclath := 0x08 })) = some (0x923, 0, 2) := by decide
/-- V14, S5. -/
theorem test_call :
    flow (exec (.call 0x250) (before 0 0 0x18)) = some (0x250, 0x101, 2) := by decide
/-- V14: all 13 bits of PC + 1 are pushed. -/
theorem test_call_all_bits :
    flow (exec (.call 0x7FF) ({ before 0 0 0x18 with pc := 0x3FF, pclath := 0x18 })) = some (0x1FFF, 0x400, 2) := by decide
/-- V14. -/
theorem test_ret :
    flow (exec (.ret) (push 0x123 (push 0x77 (before 0 0 0x18)))) = some (0x123, 0x77, 2) := by decide
/-- V14. -/
theorem test_retlw :
    flow (exec (.retlw 0x41) (push 0x123 (push 0x77 (before 7 0 0x1F)))) = some (0x123, 0x77, 2) := by decide
/-- V14. -/
theorem test_retlw_w : seen (exec (.retlw 0x41) (before 0x07 0x00 0x1F)) = some (0x41, 0x00, 0x1F) := by decide
/-- V14, S14: TOS = 0123h, INTCON = 10h. -/
theorem test_retfie :
    (match exec .retfie (push 0x123 { before 0 0 0x18 with intcon := 0x10 }) with
     | .next t => decide (t.pc = 0x123 ∧ t.intcon = 0x90 ∧ t.sp = 0 ∧ t.cycles = 2)
     | _ => false) = true := by decide
/-- V15: CLRWDT with PSA = 1. -/
theorem test_clrwdt :
    (match exec .clrwdt { before 0 0 0x07 with wdt := 5, t0 := ⟨0, 9, true, 0, false⟩ } with
     | .next t => decide (t.status = 0x1F ∧ t.wdt = 0 ∧ t.t0.prescaler = 0 ∧ t.t0.counted = false)
     | _ => false) = true := by decide
/-- V15: SLEEP with no wake condition. -/
theorem test_sleep :
    (match exec .sleep (before 0 0 0x1F) with
     | .next t => decide (t.status = 0x17 ∧ t.sleeping = true ∧ t.pc = 0x101)
     | _ => false) = true := by decide
/-- V15: SLEEP with INTCON = 12h is a NOP. -/
theorem test_sleep_pending :
    (match exec .sleep { before 0 0 0x1F with intcon := 0x12 } with
     | .next t => decide (t.status = 0x1F ∧ t.sleeping = false ∧ t.pc = 0x101)
     | _ => false) = true := by decide
/-- V15: OPTION with W = D7h. -/
theorem test_option :
    (match exec .option (before 0xD7 0 0x18) with
     | .next t => decide (t.option = 0xD7 ∧ t.status = 0x18 ∧ peek .option t = 0xD7)
     | _ => false) = true := by decide

/-! ## Addressing, devices, interrupts, resets -/

/-- V16: MOVWF INDF, bank 1's 20h, the common byte 70h. -/
theorem test_addressing :
    operandReg 0 { before 0 0 0x18 with fsr := 0x25 } = .gpr 0x25 ∧ operandReg 0x20 (before 0 0 0x38) = .gpr 0xA0 ∧
      operandReg 0x70 (before 0 0 0x38) = .gpr 0x70 ∧ operandReg 0x03 (before 0 0 0x78) = .status ∧
      operandReg 0x07 (before 0 0 0x18) = .none := by decide

/-- Timer0 alone, PSA = 1. -/
def timing : State := { before 0x10 0 0x18 with option := 0x08 }

/-- V18: FEh, FFh, 00h with T0IF. -/
theorem test_timer0 :
    let s := { timing with t0 := ⟨0xFE, 0, false, 0, false⟩ }
    (tickN 1 s).t0.tmr0 = 0xFF ∧ (tickN 2 s).t0.tmr0 = 0x00 ∧ (tickN 2 s).intcon = 0x04 := by decide

/-- TMR0 in the cycles after an instruction. -/
def tmr0After (i : Instr) (s : State) : List Byte :=
  match exec i s with
  | .next t => (List.range 4).map fun n => (tickN n (endWrite (tickN t.cycles t))).t0.tmr0
  | _ => []

/-- V18: MOVWF TMR0 and three NOPs read 10h, 10h, 11h. -/
theorem test_timer0_inhibit : tmr0After (.movwf 0x01) timing = [0x10, 0x10, 0x10, 0x11] := by decide

/-- R346: the two cycles after INCFSZ TMR0, 1 whose result 00h takes the skip. -/
theorem test_timer0_inhibit_skip :
    tmr0After (.incfsz 0x01 .toF) { timing with t0 := ⟨0xFF, 0, false, 0, false⟩ } = [0x00, 0x00, 0x00, 0x01] := by
  decide

/-- R363: CCP1 in the cycles after a period starts, PR2 = 3 at 1:4, with the duty value in CCPR1H and the latch. -/
def pwmPin (hi : Byte) (latch : BitVec 2) : List Bool :=
  let s := { before 0 0 0x18 with t2 := ⟨0, 3, 0x05, 0, 0⟩, ccp := ⟨hi, hi, 0x0C, latch, true, 0⟩ }
  (List.range 16).map fun n => (tickN n s).ccp.out

/-- R363: a duty value of 1 is high for 4 Tosc, one cycle; CCPR1H = PR2 with latch 3 is low for the period's last cycle. -/
theorem test_pwm_pin :
    pwmPin 0 1 = true :: List.replicate 15 false ∧ pwmPin 3 3 = List.replicate 15 true ++ [false] := by decide

/-- R363: MOVWF TMR2 that makes TMR2 = CCPR1H, latch 0, at 1:16 clears CCP1. -/
theorem test_pwm_write_tmr2 :
    (match runInstr (.movwf 0x11) { before 0x05 0 0x18 with
        t2 := ⟨0, 0x10, 0x06, 0, 0⟩, ccp := ⟨5, 5, 0x0C, 0, true, 0⟩ } with
     | .next t => decide (t.t2.tmr = 0x05 ∧ t.ccp.out = false)
     | _ => false) = true := by decide

/-- R382: no frame ends while the core sleeps. -/
theorem test_sleep_frame :
    let s := { before 0 0 0x18 with usart := { State.reset.usart with tsr := some 0x55 } }
    (peek .txsta (eventStep false .frameSent s)).getLsbD 1 = true ∧
      (peek .txsta (eventStep false .frameSent { s with sleeping := true })).getLsbD 1 = false := by decide

/-- V17, first row. -/
theorem test_interrupt_entry :
    let s := { before 0x55 0 0x1F with pc := 0x123, intcon := 0x92 }
    (match step s with
     | .next t => decide (t.pc = 0x004 ∧ t.intcon = 0x12 ∧ tos t = 0x123 ∧ t.w = 0x55 ∧ t.status = 0x1F)
     | _ => false) = true := by decide

/-- V17, rows 4 and 5: PEIE gates TMR1IF. -/
theorem test_interrupt_gate :
    irq { before 0 0 0 with intcon := 0xC0, pie1 := 0x01, pir1 := 0x01 } = true ∧
      irq { before 0 0 0 with intcon := 0x80, pie1 := 0x01, pir1 := 0x01 } = false := by decide

/-- The EEPROM write in progress when instructions have run one after the other. -/
def eeWriteAfter (s : State) : List Instr → Option EeWrite
  | [] => s.ee.write
  | i :: rest =>
    match runInstr i s with
    | .next t => eeWriteAfter t rest
    | _ => none

/-- Bank 1, WREN = 1, 3Ch to be written to EE[10h]. -/
def writer : State := { before 0 0 0x38 with ee := ⟨0x10, 0x3C, 0x04, [], .idle, none⟩ }

/-- P5: the five instructions start a write of 3Ch to EE[10h], and its first cycle passes. -/
theorem test_eeprom_sequence :
    eeWriteAfter writer [.movlw 0x55, .movwf 0x1D, .movlw 0xAA, .movwf 0x1D, .bsf 0x1C 1] = some ⟨0x10, 0x3C, 1⟩ := by
  decide +kernel
/-- R373, D31: a NOP among them, or AAh made another way in the same cycles, loses it. -/
theorem test_eeprom_sequence_broken :
    eeWriteAfter writer [.movlw 0x55, .nop, .movwf 0x1D, .movlw 0xAA, .movwf 0x1D, .bsf 0x1C 1] = none ∧
      eeWriteAfter writer [.movlw 0x55, .movwf 0x1D, .xorlw 0xFF, .movwf 0x1D, .bsf 0x1C 1] = none := by
  decide +kernel

/-- V19. -/
theorem test_reset_mclr :
    (takeReset .mclr (before 0 0 0x3D)).status = 0x1D ∧ (takeReset .mclr (before 0 0 0x3D)).pc = 0 := by decide
/-- V19: a time-out resets an awake core and wakes a sleeping one. -/
theorem test_reset_wdt :
    (wdtTimeout (before 0 0 0x1F)).status = 0x0F ∧
      (wdtTimeout { before 0 0 0x17 with sleeping := true }).status = 0x07 ∧
      (wdtTimeout { before 0 0 0x17 with sleeping := true }).pc = 0x100 := by decide
/-- V19: TXSTA. -/
theorem test_reset_txsta : peek .txsta State.reset = 0x02 ∧ peek .option State.reset = 0xFF := by decide
/-- The host's placing of a word: it runs as the first instruction after reset. -/
theorem test_withFetchWord :
    (match step (State.reset.withFetchWord 16 0x2923) with
     | .next t => decide (t.pc = 0x123 ∧ t.cycles = 2)
     | _ => false) = true := by decide

/-! ## Witnesses: a state and operands that meet the hypotheses of each statement -/

/-- A state with something in every memory: a program, a byte of RAM, a byte of EEPROM, a write of it in progress. -/
def demo : State :=
  { State.reset with
    pc := 0x3FF
    ram := [(0x20, 0x5A), (0x14F, 0x01)]
    prog := [(0x000, 0x2923), (0x3FF, 0x0000)]
    intcon := 0x80
    ee := ⟨0x10, 0x3C, 0x04, [(0x10, 0x38), (0x7F, 0x00)], .idle, some ⟨0x10, 0x3C, 2⟩⟩ }

/-- The premise of every statement that assumes the invariant. -/
theorem witness_inv : State.Inv demo := by
  refine
    ⟨by decide, by decide, by decide, by decide, by decide, by decide, by decide, ?_, ?_, ?_, ?_, ?_, ?_, ?_, ?_, nofun⟩
  · show (0 : Nat) ≤ 2; decide
  · exact ⟨rfl, by decide⟩
  · exact ⟨rfl, by decide, by decide⟩
  · exact ⟨rfl, by decide⟩
  · exact ⟨rfl, by decide, nofun, nofun⟩
  · exact (by decide : (0 : Byte) &&& 0x10 = 0)
  · refine ⟨rfl, ?_, by decide, by decide⟩
    rintro w ⟨⟩
    decide
  · exact (by decide : (0b11011111 : Byte) &&& 0x20 = 0)

theorem witness_DecodeOfEncodeIsIdentity :
    Instr.WellFormed (.addwf 0x7F .toF) ∧ Instr.WellFormed (.bcf 0 7) ∧ Instr.WellFormed (.goto 0x7FF) := by decide

/-- `lo` and `hi` both meet the clause `w &&& mask = base` (R150). -/
abbrev spans (mask base lo hi : InsnWord) : Prop := lo &&& mask = base ∧ hi &&& mask = base

theorem witness_WordsOfEachOpcodeRow_file :
    spans 0x3F80 0x0080 0x0080 0x00FF ∧ spans 0x3F80 0x0180 0x0180 0x01FF ∧ spans 0x3FFF 0x0103 0x0103 0x0103 ∧
      spans 0x3F00 0x0200 0x0200 0x02FF ∧ spans 0x3F00 0x0300 0x0300 0x03FF ∧ spans 0x3F00 0x0400 0x0400 0x04FF ∧
      spans 0x3F00 0x0500 0x0500 0x05FF ∧ spans 0x3F00 0x0600 0x0600 0x06FF ∧
      spans 0x3F00 0x0700 0x0700 0x07FF := by decide
theorem witness_WordsOfEachOpcodeRow_file2 :
    spans 0x3F00 0x0800 0x0800 0x08FF ∧ spans 0x3F00 0x0900 0x0900 0x09FF ∧ spans 0x3F00 0x0A00 0x0A00 0x0AFF ∧
      spans 0x3F00 0x0B00 0x0B00 0x0BFF ∧ spans 0x3F00 0x0C00 0x0C00 0x0CFF ∧ spans 0x3F00 0x0D00 0x0D00 0x0DFF ∧
      spans 0x3F00 0x0E00 0x0E00 0x0EFF ∧ spans 0x3F00 0x0F00 0x0F00 0x0FFF := by decide
theorem witness_WordsOfEachOpcodeRow_upper :
    spans 0x3C00 0x1000 0x1000 0x13FF ∧ spans 0x3C00 0x1400 0x1400 0x17FF ∧ spans 0x3C00 0x1800 0x1800 0x1BFF ∧
      spans 0x3C00 0x1C00 0x1C00 0x1FFF ∧ spans 0x3800 0x2000 0x2000 0x27FF ∧ spans 0x3800 0x2800 0x2800 0x2FFF ∧
      spans 0x3C00 0x3000 0x3000 0x33FF ∧ spans 0x3C00 0x3400 0x3400 0x37FF := by decide
theorem witness_WordsOfEachOpcodeRow_upper2 :
    spans 0x3F00 0x3800 0x3800 0x38FF ∧ spans 0x3F00 0x3900 0x3900 0x39FF ∧ spans 0x3F00 0x3A00 0x3A00 0x3AFF ∧
      spans 0x3F00 0x3B00 0x3B00 0x3BFF ∧ spans 0x3E00 0x3C00 0x3C00 0x3DFF ∧ spans 0x3E00 0x3E00 0x3E00 0x3FFF ∧
      spans 0x3F9F 0x0000 0x0000 0x0060 := by decide

theorem witness_DataMemoryMap :
    (0x020 ≤ 0x020 ∧ 0x14F ≤ 0x14F ∧ 0x14F < 512) ∧ (0x150 ≤ 0x150 ∧ 0x1EF ≤ 0x1EF ∧ 0x1EF < 512) := by decide
theorem witness_OperandAddressingModes :
    State.reset.fsr.toNat % 128 = 0 ∧ ({ State.reset with fsr := 0x80 } : State).fsr.toNat % 128 = 0 := by decide
/-- The premises `s.Inv` of GeneralByteWriteThenRead, RegisterWriteReadsBack, UnimplementedBitsReadZero and
InterruptConditionSources. -/
theorem witness_inv_statements : State.Inv demo ∧ Reg.status ≠ .gpr 0x20 := ⟨witness_inv, nofun⟩
theorem witness_PclReadAndComputedJump : operandReg 0x02 (before 0 0 0x18) = .pcl := by decide
theorem witness_PortReadModifyWriteUsesPins :
    operandReg 0x06 State.reset = .portb ∧ State.reset.io.trisB.getLsbD 0 = true ∧
      State.reset.io.trisB.getLsbD 7 = true ∧ State.reset.io.extB.getLsbD 7 = false ∧
      State.reset.io.extB.getLsbD 0 = false := by decide
theorem witness_PinLevelsFollowDirection : (0 : Nat) < 8 ∧ (7 : Nat) < 8 := by decide
/-- The premise `plainDest` of LogicFileResult, IncrementDecrementFileResult and RotateFileResult, both ways. -/
theorem witness_plainDest : plainDest .toW .status ∧ plainDest .toF (operandReg 0x20 (before 0 0 0x18)) :=
  ⟨nofun, fun _ => by decide⟩
theorem witness_SkipOnZeroResult :
    (Dest.toF = .toF → operandReg 0x20 (before 0 0 0x18) ≠ .pcl) ∧
      (Dest.toW = .toF → operandReg 0x02 State.reset ≠ .pcl) :=
  ⟨fun _ => by decide, nofun⟩
theorem witness_SkipInstructionWritingPcl : operandReg 0x02 State.reset = .pcl := by decide
theorem witness_OptionResult :
    (0xFF#8).getLsbD 3 = State.reset.option.getLsbD 3 ∧ State.reset.t0.counted = false := by decide
theorem witness_StatusAsDestination : operandReg 0x03 (before 0 0 0x78) = .status := by decide
theorem witness_ToPdWrittenOnlyByClrwdtSleep :
    (∃ t, exec (.movwf 0x03) (before 0xFF 0 0) = .next t) ∧
      Instr.movwf 0x03 ≠ .clrwdt ∧ Instr.movwf 0x03 ≠ .sleep :=
  ⟨⟨_, rfl⟩, nofun, nofun⟩
theorem witness_StackTouchedOnlyByCallAndReturns :
    (∃ t, exec .nop State.reset = .next t) ∧ (∀ k, Instr.nop ≠ .call k) ∧ Instr.nop ≠ .ret ∧ Instr.nop ≠ .retfie ∧
      ∀ k, Instr.nop ≠ .retlw k := ⟨⟨_, rfl⟩, nofun, nofun, nofun, nofun⟩
theorem witness_StackPushPop :
    ([1, 2, 3, 4, 5, 6, 7, 8] : List CodeAddr).length = 8 ∧ (7 : Nat) < 8 ∧ 7 ≠ State.reset.sp.toNat := by decide
theorem witness_GeneralBytesFrame :
    (∃ t, exec (.movwf 0x20) State.reset = .next t) ∧ storeReg (.movwf 0x20) State.reset ≠ some (.gpr 0x21) :=
  ⟨⟨_, rfl⟩, by decide⟩
theorem witness_RegistersFrame :
    (∃ t, exec (.btfsc 0x1A 0) State.reset = .next t) ∧ writesW (.btfsc 0x1A 0) = false ∧
      storeReg (.btfsc 0x1A 0) State.reset = none ∧ Instr.btfsc 0x1A 0 ≠ .retfie :=
  ⟨⟨_, rfl⟩, rfl, rfl, nofun⟩
/-- Clauses on reads: the receive buffer with one byte and with two. -/
theorem witness_RegistersFrame_reads :
    let one : Usart := { State.reset.usart with fifo := [⟨1, none, false⟩] }
    let two : Usart := { State.reset.usart with fifo := [⟨1, none, false⟩, ⟨2, some true, true⟩] }
    one.fifo = ⟨1, none, false⟩ :: [] ∧ two.fifo = ⟨1, none, false⟩ :: ⟨2, some true, true⟩ :: [] := ⟨rfl, rfl⟩
/-- The premises of ProgramMemoryNeverChanges and StepKeepsInvariant. -/
theorem witness_step : State.Inv demo ∧ ∃ t, step demo = .next t := ⟨witness_inv, ⟨_, rfl⟩⟩
theorem witness_InterruptEntryAtBoundary :
    let s := { before 0 0 0 with intcon := 0x92 }
    s.env = [] ∧ s.sleeping = false ∧ s.prefetched = false ∧ irq s = true := by decide
theorem witness_EntryThenRetfieReturns : demo.intcon.getLsbD 7 = true := by decide
/-- A NOP, and before it an instruction that clears the flag, with an interrupt pending. -/
def held : State :=
  { demo with pc := 0x3FE, intcon := 0x92, prog := [(0x3FE, 0x108B), (0x3FF, 0x0000)], env := [.hold] }
/-- Clauses: the request outlives the NOP; BCF INTCON, 1 withdraws it. -/
theorem witness_PendingInterruptWaitsForOneInstruction :
    let nop := { held with pc := 0x3FF }
    held.env = [.hold] ∧ held.sleeping = false ∧ held.irqHeld &&& requests held = 0 ∧ held.pc.toNat < 0x400 ∧
      Memory.find held.prog held.pc.toNat = some 0x108B ∧ decode 0x108B = some (.bcf 0x0B 1) ∧
      Memory.find nop.prog nop.pc.toNat = some 0x0000 ∧ decode 0x0000 = some .nop ∧
      (match exec (.bcf 0x0B 1) (beginInstr (.bcf 0x0B 1) { held with env := [] }) with
       | .next u => decide (requests held &&& requests u = 0)
       | _ => false) = true ∧
      (match exec .nop (beginInstr .nop { nop with env := [] }) with
       | .next u =>
         let t := finishStep (lapse u)
         decide (requests nop &&& requests u &&& requests t ≠ 0 ∧ t.sleeping = false)
       | _ => false) = true := by decide
theorem witness_SleepingCoreAndWakeUp :
    let s := { demo with sleeping := true }
    let t := { demo with sleeping := true, intcon := 0x12 }
    s.env = [] ∧ s.sleeping = true ∧ wake s = false ∧ t.env = [] ∧ t.sleeping = true ∧ wake t = true ∧
      t.pc.toNat < 0x400 ∧ Memory.find t.prog t.pc.toNat = some 0x0000 ∧ decode 0x0000 = some .nop := by decide
theorem witness_DevicesLeaveTheCpuAlone :
    (3 : Nat) < 8 ∧ (7 : Nat) < 8 ∧ ({ demo with intcon := 0x07 } : State).intcon.getLsbD 2 = true ∧
      demo.rmw ≠ .intcon ∧ demo.rmw ≠ .pir1 := by
  decide
/-- Timer0 in timer mode: the OPTION register and the prescaler's count. -/
def timer0At (option prescaler : Byte) : State :=
  { timing with option := option, t0 := ⟨0xFF, prescaler, prescaler != 0, 0, false⟩ }
/-- Clauses: PSA = 1; 1:2 with the prescaler at its last and at its first count. -/
theorem witness_Timer0InstructionCycle :
    (∀ s ∈ [timer0At 0x08 0, timer0At 0x00 1, timer0At 0x00 0],
      s.sleeping = false ∧ s.option.getLsbD 5 = false ∧ s.t0.wrote = false ∧ s.t0.inhibit = 0 ∧ s.rmw ≠ .intcon) ∧
      ({ timing with sleeping := true } : State).sleeping = true ∧ (timer0At 0x08 0).option.getLsbD 3 = true ∧
      ((timer0At 0x00 1).t0.prescaler + 1).toNat % 2 ^ (((timer0At 0x00 1).option.extractLsb' 0 3).toNat + 1) = 0 ∧
      ((timer0At 0x00 0).t0.prescaler + 1).toNat % 2 ^ (((timer0At 0x00 0).option.extractLsb' 0 3).toNat + 1) ≠ 0 := by
  decide
theorem witness_Timer0WriteInhibit :
    storeReg (.movwf 0x01) timing = some .tmr0 ∧ storeReg (.incfsz 0x01 .toF) timing = some .tmr0 ∧
      timing.sleeping = false ∧ timing.option.getLsbD 5 = false ∧ timing.option.getLsbD 3 = true ∧
      ({ timing with option := 0x07 } : State).option.getLsbD 3 = false := by decide
/-- Timer1 at 1:8 and FFFEh: CCP1CON, CCPR1L and the prescaler's count. -/
def timer1At (ccp1con lo : Byte) (pre : Nat) : State :=
  { demo with t1 := ⟨0xFE, 0xFF, 0x31, pre, false⟩, ccp := ⟨lo, 0xFF, ccp1con, 0, false, 0⟩ }
/-- Clauses: the prescaler at its last count and at another, in modes on both sides of the compare modes; a match in each
of the three compare modes, and none. -/
theorem witness_Timer1InstructionCycle :
    (∀ s ∈ [timer1At 0x07 0 7, timer1At 0x0C 0 7, timer1At 0x07 0 6, timer1At 0x08 0xFF 7, timer1At 0x09 0xFF 7,
        timer1At 0x0A 0xFF 7, timer1At 0x0A 0xFE 7],
      s.sleeping = false ∧ s.t1.con.getLsbD 0 = true ∧ s.t1.con.getLsbD 1 = false ∧ s.rmw ≠ .pir1 ∧
        (s.ccp.con.extractLsb' 0 4).toNat ≠ 11) ∧
      (timer1At 0x08 0xFF 7).t1.pre + 1 = 2 ^ ((timer1At 0x07 0 7).t1.con.extractLsb' 4 2).toNat ∧
      (timer1At 0x07 0 6).t1.pre + 1 < 2 ^ ((timer1At 0x07 0 6).t1.con.extractLsb' 4 2).toNat ∧
      tmr1 (timer1At 0x08 0xFF 7) + 1 = ccpr1 (timer1At 0x08 0xFF 7) ∧
      tmr1 (timer1At 0x0A 0xFE 7) + 1 ≠ ccpr1 (timer1At 0x0A 0xFE 7) := by decide
/-- At 1:1 and at 1:8. -/
theorem witness_SpecialEventPeriod :
    ∀ con ∈ ([0x01, 0x31] : List Byte),
      let s := { demo with t1 := ⟨0, 0, con, 0, false⟩, ccp := ⟨0x02, 0x00, 0x0B, 0, false, 0⟩ }
      s.sleeping = false ∧ s.ccp.con.extractLsb' 0 4 = 0b1011 ∧ s.t1.con.getLsbD 0 = true ∧
        s.t1.con.getLsbD 1 = false ∧ s.t1.pre = 0 ∧ tmr1 s = 0 ∧ s.rmw ≠ .pir1 ∧ 2 ≤ (ccpr1 s).toNat := by decide
/-- Timer2 with postscale 1:16 and PR2 = 10h, in PWM mode with the duty value 5:2: T2CON's low bits, TMR2, the counters. -/
def timer2At (con tmr : Byte) (pre post : Nat) : State :=
  { demo with t2 := ⟨tmr, 0x10, 0x78 ||| con, pre, post⟩, ccp := ⟨0x01, 0x05, 0x0C, 2, true, 0⟩ }
/-- Clauses: Timer2 off; on at 1:4, the prescaler not at its last count; no match; a match with the postscaler not at its
last count; at it. -/
theorem witness_Timer2InstructionCycle :
    (∀ s ∈ [timer2At 1 0x10 3 0, timer2At 5 0x10 2 0, timer2At 5 0x0F 3 0, timer2At 5 0x10 3 14, timer2At 5 0x10 3 15],
      s.sleeping = false ∧ s.rmw ≠ .pir1 ∧ (s.t2.con.extractLsb' 0 2).toNat = 1 ∧
        (s.t2.con.extractLsb' 3 4).toNat + 1 = 16 ∧ 12 ≤ (s.ccp.con.extractLsb' 0 4).toNat ∧ s.ccp.lo ≠ 0) ∧
      (timer2At 1 0x10 3 0).t2.con.getLsbD 2 = false ∧ (timer2At 5 0x10 2 0).t2.con.getLsbD 2 = true ∧
      (timer2At 5 0x10 2 0).t2.pre + 1 < 4 ∧ 4 ≤ (timer2At 5 0x0F 3 0).t2.pre + 1 ∧
      (timer2At 5 0x0F 3 0).t2.tmr ≠ (timer2At 5 0x0F 3 0).t2.pr ∧
      (timer2At 5 0x10 3 14).t2.tmr = (timer2At 5 0x10 3 14).t2.pr ∧
      (timer2At 5 0x10 3 14).t2.post + 1 < 16 ∧ 16 ≤ (timer2At 5 0x10 3 15).t2.post + 1 := by decide
/-- Clauses of the PWM pin: at the duty value as the cycle ends; as it begins, by its low bits and at 1:1; neither. -/
theorem witness_Timer2InstructionCycle_pwm :
    let ends := tick (timer2At 5 0x05 1 0)
    (ends.t2.tmr = ends.ccp.hi ∧ ends.t2.pre * 4 / 4 = ends.ccp.latch.toNat) ∧
      (∀ s ∈ [timer2At 5 0x05 2 0, timer2At 4 0x05 0 0, timer2At 5 0x07 2 0],
        (tick s).t2.tmr ≠ (tick s).ccp.hi ∨ (tick s).t2.pre * 4 / 4 ≠ (tick s).ccp.latch.toNat) ∧
      (timer2At 5 0x05 2 0).t2.pre * 4 / 4 = (timer2At 5 0x05 2 0).ccp.latch.toNat ∧
      ((timer2At 4 0x05 0 0).t2.con.extractLsb' 0 2).toNat = 0 ∧
      (timer2At 4 0x05 0 0).t2.tmr = (timer2At 4 0x05 0 0).ccp.hi ∧
      (timer2At 5 0x07 2 0).t2.tmr ≠ (timer2At 5 0x07 2 0).ccp.hi := by decide
theorem witness_EepromUnlockTiming :
    let s := { demo with status := 0x38 }
    s.status.getLsbD 6 = false ∧ s.status.getLsbD 5 = true ∧ s.ee.con1.getLsbD 2 = true := by decide
theorem witness_EepromControlWrite :
    ({ demo with ee := { demo.ee with write := none } } : State).ee.write = none ∧ (0x01#8).getLsbD 0 = true ∧
      (0x01#8).getLsbD 1 = false ∧ (0x02#8).getLsbD 1 = true ∧ demo.ee.con1.getLsbD 2 = true ∧
      ({ demo with ee := { demo.ee with unlock := .complete } } : State).ee.unlock = .complete := by decide
theorem witness_EepromWriteCompletes :
    State.Inv demo ∧ demo.ee.write = some ⟨0x10, 0x3C, 2⟩ ∧ 2 ≤ (EeWrite.mk 0x10 0x3C 2).cycles :=
  ⟨witness_inv, rfl, by decide⟩
/-- A receiver with RX9 and ADEN, on, its buffer as given. -/
def receiver (rcsta : Byte) (fifo : List RxByte) : State :=
  { demo with usart := { demo.usart with rcsta := rcsta, fifo := fifo } }
/-- Reception stopped by an overrun under SREN alone, at the write of RCSTA that clears OERR, and at the one that then sets
CREN (R366): SREN = 1 does not start it again. -/
theorem test_overrun_stops_until_cren_set :
    let s := eventStep false (.frame 0x03 true) (receiver 0xB0 [⟨1, none, false⟩, ⟨2, none, false⟩])
    let u := memWrite .rcsta 0xA0 s
    (receiving s || receiving u) = false ∧ u.usart.rcsta.getLsbD 1 = false ∧ receiving (memWrite .rcsta 0xB0 u) = true := by
  decide
/-- Clauses: a sleeping core; an overrun stands; a data byte with address detect; a full buffer; an empty one. -/
theorem witness_ReceiveBuffer :
    let full := receiver 0xD0 [⟨1, none, false⟩, ⟨2, none, false⟩]
    (∀ s ∈ [receiver 0xDA [], receiver 0xD8 [], full],
      s.usart.rcsta.getLsbD 7 = true ∧ s.usart.txsta.getLsbD 4 = false ∧ s.usart.rcsta.getLsbD 4 = true) ∧
      (receiver 0xDA []).usart.rcsta.getLsbD 1 = true ∧ (receiver 0xD8 []).usart.rcsta.getLsbD 1 = false ∧
      (receiver 0xD8 []).usart.rcsta.getLsbD 6 = true ∧ (receiver 0xD8 []).usart.rcsta.getLsbD 3 = true ∧
      (0x0FF#9).getLsbD 8 = false ∧ (0x100#9).getLsbD 8 = true ∧ full.usart.rcsta.getLsbD 1 = false ∧
      full.sleeping = false ∧ ({ full with sleeping := true } : State).sleeping = true ∧ 2 ≤ full.usart.fifo.length ∧
      (receiver 0xD8 []).usart.fifo = [] ∧ full.usart.rxStopped = false := by decide
/-- Clauses on a stop: SREN alone enables; an overrun stands under CREN; it has been cleared; RCSTA is written both ways. -/
theorem witness_ReceiveBuffer_stop :
    let s (rcsta : Byte) : State :=
      { demo with usart := { demo.usart with rcsta := rcsta, rxStopped := true } }
    ((s 0xA0).usart.rcsta.getLsbD 7 = true ∧ (s 0xA0).usart.txsta.getLsbD 4 = false ∧
        (s 0xA0).usart.rcsta.getLsbD 5 = true ∧ (s 0xA0).usart.rxStopped = true) ∧
      (s 0x92).usart.rcsta.getLsbD 1 = true ∧ (s 0x92).usart.rxStopped = true ∧
      (0x90#8).getLsbD 4 = true ∧ (0x80#8).getLsbD 4 = false := by decide
theorem witness_OtherResetLeaves :
    ResetCause.mclr ≠ .por ∧ ({ demo with ee := { demo.ee with write := none } } : State).ee.write = none := by decide
theorem witness_StepRunsDecodedInstruction :
    demo.env = [] ∧ demo.sleeping = false ∧ (irq demo = false ∨ demo.prefetched = true) ∧ demo.pc.toNat < 0x400 ∧
      Memory.find demo.prog demo.pc.toNat = some 0x0000 ∧ decode 0x0000 = some .nop := by decide
/-- Each stop is reached, from states that meet the premises. -/
theorem witness_StepStopsOnlyAtFetch :
    (let s := { State.reset with pc := 0x400 }
     s.env = [] ∧ s.sleeping = false ∧ irq s = false ∧ 0x400 ≤ s.pc.toNat) ∧
      (let s := { State.reset with prog := [(0x000, 0x0001)] }
       s.env = [] ∧ s.sleeping = false ∧ irq s = false ∧ s.pc.toNat < 0x400 ∧
         Memory.find s.prog s.pc.toNat = some 0x0001 ∧ decode 0x0001 = none) ∧
      Memory.find State.reset.prog State.reset.pc.toNat = none := by decide
end

section
/-! Proofs of the statements about the state (10_state.md): the shapes of the instructions, the fetch, and what each statement
needs of them. -/

namespace Sys2Proof.Machine

/-! ## The shapes of the instructions

Rules over all instructions are proved shape by shape: instructions that share an operand form share one case. -/

/-- What an instruction does, with the values it takes from the state it starts in. -/
inductive Shape where
  | file (f : BitVec 7) (d : Dest) (fn : Byte → Alu)
  | skip (f : BitVec 7) (d : Dest) (fn : Byte → Byte)
  | test (f : BitVec 7) (b : BitVec 3) (want : Bool)
  | clear (f : BitVec 7)
  | store (f : BitVec 7)
  | literal (a : Alu)
  | nop
  | call (k : BitVec 11)
  | goto (k : BitVec 11)
  | ret
  | retlw (k : Byte)
  | retfie
  | clrwdt
  | sleep
  | option

/-- The shape of an instruction run in `s`. -/
def shapeOf (i : Instr) (s : State) : Shape :=
  match i with
  | .addwf f d => .file f d fun v => add s.w v
  | .andwf f d => .file f d fun v => withZ (s.w &&& v)
  | .comf f d => .file f d fun v => withZ (~~~v)
  | .decf f d => .file f d fun v => withZ (v - 1)
  | .incf f d => .file f d fun v => withZ (v + 1)
  | .iorwf f d => .file f d fun v => withZ (s.w ||| v)
  | .movf f d => .file f d withZ
  | .rlf f d => .file f d (rotateLeft s.c)
  | .rrf f d => .file f d (rotateRight s.c)
  | .subwf f d => .file f d fun v => sub v s.w
  | .swapf f d => .file f d fun v => plain (swapNibbles v)
  | .xorwf f d => .file f d fun v => withZ (s.w ^^^ v)
  | .bcf f b => .file f .toF fun v => plain (setBit v b.toNat false)
  | .bsf f b => .file f .toF fun v => plain (setBit v b.toNat true)
  | .decfsz f d => .skip f d fun v => v - 1
  | .incfsz f d => .skip f d fun v => v + 1
  | .btfsc f b => .test f b false
  | .btfss f b => .test f b true
  | .clrf f => .clear f
  | .movwf f => .store f
  | .clrw => .literal (withZ 0x00)
  | .addlw k => .literal (add s.w k)
  | .andlw k => .literal (withZ (s.w &&& k))
  | .iorlw k => .literal (withZ (s.w ||| k))
  | .movlw k => .literal (plain k)
  | .sublw k => .literal (sub k s.w)
  | .xorlw k => .literal (withZ (s.w ^^^ k))
  | .nop => .nop
  | .call k => .call k
  | .goto k => .goto k
  | .ret => .ret
  | .retlw k => .retlw k
  | .retfie => .retfie
  | .clrwdt => .clrwdt
  | .sleep => .sleep
  | .option => .option

/-- CLRF's effect (R204). -/
def clearFile (f : BitVec 7) (s : State) : State :=
  let s1 := fileWrite f 0x00 s
  finish (operandReg f s == .pcl) { s1 with status := clrfStatus (operandReg f s) s.status s1.status }

/-- SLEEP's effect (R271). -/
def goToSleep (s : State) : State :=
  if wake s then advance s
  else advance { clearWdt s with status := setToPd true false s.status, sleeping := true }

/-- The next state of an instruction of a shape. -/
def Shape.run (h : Shape) (s : State) : State :=
  match h with
  | .file f d fn => fileOp f d fn s
  | .skip f d fn => fileSkip f d fn s
  | .test f b want => bitSkip f b want s
  | .clear f => clearFile f s
  | .store f => finish (operandReg f s == .pcl) (fileWrite f s.w s)
  | .literal a => literalOp a s
  | .nop => advance s
  | .call k => jump (pageTarget k s) (push (s.pc + 1) s)
  | .goto k => jump (pageTarget k s) s
  | .ret => subroutineReturn s
  | .retlw k => subroutineReturn { s with w := k }
  | .retfie => interruptReturn s
  | .clrwdt => advance { clearWdt s with status := setToPd true true s.status }
  | .sleep => goToSleep s
  | .option => advance (memWrite .option s.w s)

/-- The register a shape stores to. -/
def Shape.storeReg (h : Shape) (s : State) : Option Reg :=
  match h with
  | .file f .toF _ | .skip f .toF _ | .clear f | .store f => some (operandReg f s)
  | .option => some .option
  | _ => none

/-- A shape that writes W. -/
def Shape.writesW : Shape → Bool
  | .file _ .toW _ | .skip _ .toW _ | .literal _ | .retlw _ => true
  | _ => false

/-- Every instruction answers the next state of its shape (R300). -/
theorem exec_eq_run (i : Instr) (s : State) : exec i s = .next ((shapeOf i s).run s) := by
  cases i <;> rfl

/-- What `exec` answers is the next state of the instruction's shape. -/
theorem exec_next_iff {i : Instr} {s t : State} : exec i s = .next t ↔ (shapeOf i s).run s = t := by
  rw [exec_eq_run, Host.Outcome.next.injEq]

theorem storeReg_eq_shape (i : Instr) (s : State) : storeReg i s = (shapeOf i s).storeReg s := by
  cases i with
  | addwf f d | andwf f d | comf f d | decf f d | decfsz f d | incf f d | incfsz f d | iorwf f d | movf f d | rlf f d
  | rrf f d | subwf f d | swapf f d | xorwf f d => cases d <;> rfl
  | _ => rfl

theorem writesW_eq_shape (i : Instr) (s : State) : writesW i = (shapeOf i s).writesW := by
  cases i with
  | addwf f d | andwf f d | comf f d | decf f d | decfsz f d | incf f d | incfsz f d | iorwf f d | movf f d | rlf f d
  | rrf f d | subwf f d | swapf f d | xorwf f d => cases d <;> rfl
  | _ => rfl

/-! ## Every step keeps the invariant -/

theorem clearFile_inv {s : State} (f : BitVec 7) (h : s.Inv) : (clearFile f s).Inv :=
  finish_inv _ { fileWrite_inv f 0x00 h with }

theorem goToSleep_inv {s : State} (h : s.Inv) (hp : s.prefetched = false) : (goToSleep s).Inv := by
  unfold goToSleep
  split
  · exact advance_inv h
  · exact advance_inv { clearWdt_inv h with awake := fun k => absurd (hp.symm.trans k) Bool.false_ne_true }

theorem interruptReturn_inv {s : State} (h : s.Inv) : (interruptReturn s).Inv := { h with }

theorem subroutineReturn_inv {s : State} (h : s.Inv) : (subroutineReturn s).Inv := { h with }

/-- An instruction keeps the invariant. The core that runs it has left the prefetched state behind, so that SLEEP does not
leave a core asleep and woken (R384). -/
theorem Shape.run_inv {s : State} (p : Shape) (h : s.Inv) (hp : s.prefetched = false) : (p.run s).Inv := by
  cases p with
  | file f d fn => exact fileOp_inv f d fn h
  | skip f d fn => exact fileSkip_inv f d fn h
  | test f b want => exact bitSkip_inv f b want h
  | clear f => exact clearFile_inv f h
  | store f => exact finish_inv _ (fileWrite_inv f s.w h)
  | literal a => exact literalOp_inv a h
  | nop => exact advance_inv h
  | call k => exact jump_inv _ (push_inv _ h)
  | goto k => exact jump_inv _ h
  | ret => exact subroutineReturn_inv h
  | retlw k => exact subroutineReturn_inv { h with }
  | retfie => exact interruptReturn_inv h
  | clrwdt => exact advance_inv { clearWdt_inv h with }
  | sleep => exact goToSleep_inv h hp
  | option => exact advance_inv (memWrite_inv (r := .option) (fun _ k => by cases k) _ h)

theorem beginInstr_inv {s : State} (i : Instr) (h : s.Inv) : (beginInstr i s).Inv :=
  { h with cmp := h.cmp, ee := h.ee, awake := fun k => absurd k Bool.false_ne_true }

/-- What a running instruction answers: the next state of its shape, its cycles passed. -/
theorem runInstr_eq (i : Instr) (s : State) :
    runInstr i s = .next (finishStep (lapse ((shapeOf i (beginInstr i s)).run (beginInstr i s)))) := by
  unfold runInstr
  rw [exec_eq_run]

theorem takeInterrupt_inv {s : State} (h : s.Inv) : (takeInterrupt s).Inv :=
  finishStep_inv (interruptEntry_inv { h with cmp := h.cmp })

theorem sleepStep_inv {s : State} (h : s.Inv) : (sleepStep s).Inv := by
  unfold sleepStep
  split
  · exact { h with awake := fun _ => rfl }
  · exact { h with }

/-- Everything a move of the CPU can answer. -/
theorem cpuStep_cases (hold : Bool) (s : State) :
    (s.sleeping = true ∧ cpuStep hold s = .next (sleepStep s)) ∨
    (s.sleeping = false ∧ interruptDue hold s = true ∧ cpuStep hold s = .next (takeInterrupt s)) ∨
    (s.sleeping = false ∧ interruptDue hold s = false ∧ ∃ r, fetch s = .error r ∧ cpuStep hold s = .fault r) ∨
    (s.sleeping = false ∧ interruptDue hold s = false ∧ ∃ i, fetch s = .ok i ∧ cpuStep hold s = runInstr i s) := by
  unfold cpuStep
  cases s.sleeping <;> cases interruptDue hold s <;> cases fetch s <;> simp

theorem cpuStep_inv {hold : Bool} {s t : State} (h : s.Inv) (ht : cpuStep hold s = .next t) : t.Inv := by
  obtain ⟨-, e⟩ | ⟨-, -, e⟩ | ⟨-, -, r, -, e⟩ | ⟨-, -, i, -, e⟩ := cpuStep_cases hold s
  · cases e.symm.trans ht
    exact sleepStep_inv h
  · cases e.symm.trans ht
    exact takeInterrupt_inv h
  · cases e.symm.trans ht
  · rw [runInstr_eq] at e
    cases e.symm.trans ht
    exact finishStep_inv (lapse_inv (Shape.run_inv _ (beginInstr_inv i h) rfl))

/-- A step is a move of the CPU or an event, as the head of the schedule says; it takes the head off. -/
theorem step_cases (s : State) :
    ∃ rest, (∃ hold, step s = cpuStep hold { s with env := rest }) ∨
      ∃ race e, step s = .next (eventStep race e { s with env := rest }) := by
  unfold step
  split
  case h_1 he =>
    have hs : { s with env := [] } = s := by rw [← he]
    exact ⟨[], .inl ⟨false, by rw [hs]⟩⟩
  case h_2 rest _ => exact ⟨rest, .inl ⟨false, rfl⟩⟩
  case h_3 rest _ => exact ⟨rest, .inl ⟨true, rfl⟩⟩
  case h_4 race e rest _ => exact ⟨rest, .inr ⟨race, e, rfl⟩⟩

/-- Settles O60: the invariant is kept by each kind of step, by `cpuStep_inv` and `eventStep_inv`. -/
theorem stepKeepsInvariant : Obligations.StepKeepsInvariant := by
  intro s t h ht
  obtain ⟨rest, ⟨hold, e⟩ | ⟨race, ev, e⟩⟩ := step_cases s
  all_goals have h' : State.Inv { s with env := rest } := { h with }
  · exact cpuStep_inv h' (e.symm.trans ht)
  · cases e.symm.trans ht
    exact eventStep_inv race ev h'

/-! ## The reset state, the memory map -/

theorem reset_inv : State.reset.Inv where
  ram_wf := reset_memories_wf.1
  ram_addr := fun _ hc => nomatch hc
  prog_rising := reset_memories_wf.2.2
  prog_addr := fun _ hc => nomatch hc
  pir1 := by decide
  pie1 := by decide
  pcon := reset_masks.2.2.2.2
  t0 := Nat.zero_le 2
  t1 := ⟨by decide, by decide⟩
  t2 := ⟨by decide, by decide, by decide⟩
  ccp := ⟨by decide, by decide⟩
  usart := ⟨reset_masks.2.2.1, Nat.zero_le 2, fun k => absurd k (by decide), fun k => absurd k (by decide)⟩
  cmp := reset_masks.1
  ee := ⟨reset_masks.2.2.2.1, fun _ hw => (Option.some_ne_none _ hw.symm).elim, reset_memories_wf.2.1,
    fun _ hc => (List.not_mem_nil hc).elim⟩
  io := reset_masks.2.1
  awake := fun k => absurd k (by decide)

/-- Settles O59. -/
theorem resetMeetsInvariant : Obligations.ResetMeetsInvariant := reset_inv

/-- Settles O56: the registers of one literal state, read by evaluation. -/
theorem powerOnResetValues : Obligations.PowerOnResetValues := by
  unfold Obligations.PowerOnResetValues
  decide

/-- Settles O7: a finite table, evaluated at each of the 512 addresses. -/
theorem specialRegisterAddresses : Obligations.SpecialRegisterAddresses := by
  unfold Obligations.SpecialRegisterAddresses
  decide +kernel

/-! ## The fetch -/

theorem fetchAddr_below {pc : CodeAddr} (h : pc.toNat < 0x400) : fetchAddr pc = some pc.toNat := if_pos h

theorem fetchAddr_above {pc : CodeAddr} (h : 0x400 ≤ pc.toNat) : fetchAddr pc = none := if_neg (Nat.not_lt.2 h)

theorem fetch_outside {s : State} (h : 0x400 ≤ s.pc.toNat) : fetch s = .error (.fetchOutside s.pc) := by
  simp [fetch, fetchAddr_above h]

theorem fetch_undefined {s : State} (h : s.pc.toNat < 0x400) (hw : Memory.find s.prog s.pc.toNat = none) :
    fetch s = .error (.undefinedWord s.pc) := by
  simp [fetch, fetchAddr_below h, hw]

theorem fetch_unlisted {s : State} {w : InsnWord} (h : s.pc.toNat < 0x400)
    (hw : Memory.find s.prog s.pc.toNat = some w) (hd : decode w = none) : fetch s = .error (.unlistedOpcode w) := by
  simp [fetch, fetchAddr_below h, hw, fetched, hd, Config.unlistedOpcode]

theorem fetch_decoded {s : State} {w : InsnWord} {i : Instr} (h : s.pc.toNat < 0x400)
    (hw : Memory.find s.prog s.pc.toNat = some w) (hd : decode w = some i) : fetch s = .ok i := by
  simp [fetch, fetchAddr_below h, hw, fetched, hd]

/-- Why a fetch ends in a fault (R37, R412, R159). -/
theorem fetch_error {s : State} {r : Fault} (hr : fetch s = .error r) :
    (r = .fetchOutside s.pc ∧ 0x400 ≤ s.pc.toNat) ∨
      (r = .undefinedWord s.pc ∧ s.pc.toNat < 0x400 ∧ Memory.find s.prog s.pc.toNat = none) ∨
      ∃ w, r = .unlistedOpcode w ∧ s.pc.toNat < 0x400 ∧ Memory.find s.prog s.pc.toNat = some w ∧ decode w = none := by
  obtain h | h := Nat.lt_or_ge s.pc.toNat 0x400
  · cases hw : Memory.find s.prog s.pc.toNat with
    | none =>
      cases (fetch_undefined h hw).symm.trans hr
      exact .inr (.inl ⟨rfl, h, rfl⟩)
    | some w =>
      cases hd : decode w with
      | none =>
        cases (fetch_unlisted h hw hd).symm.trans hr
        exact .inr (.inr ⟨w, rfl, h, rfl, hd⟩)
      | some i => cases (fetch_decoded h hw hd).symm.trans hr
  · cases (fetch_outside h).symm.trans hr
    exact .inl ⟨rfl, h⟩

/-! ## The step -/

/-- With an empty schedule the CPU moves (log 1). -/
theorem step_idle {s : State} (h : s.env = []) : step s = cpuStep false s := by
  rw [step, h]

/-- No interrupt is taken when none is requested, or before the instruction prefetched before a SLEEP (R384). -/
theorem interruptDue_eq_false {s : State} (hold : Bool) (h : irq s = false ∨ s.prefetched = true) :
    interruptDue hold s = false := by
  unfold interruptDue
  obtain h | h := h <;> simp [h]

/-- An awake core that takes no interrupt ends in its fetch's fault. -/
theorem cpuStep_fault {s : State} {hold : Bool} {r : Fault} (hs : s.sleeping = false) (hd : interruptDue hold s = false)
    (hr : fetch s = .error r) : cpuStep hold s = .fault r := by
  simp [cpuStep, hs, hd, hr]

/-- An awake core that takes no interrupt runs what it fetches. -/
theorem cpuStep_run {s : State} {hold : Bool} {i : Instr} (hs : s.sleeping = false) (hd : interruptDue hold s = false)
    (hi : fetch s = .ok i) : cpuStep hold s = runInstr i s := by
  simp [cpuStep, hs, hd, hi]

/-- The CPU stops only awake and at a fetch. -/
theorem cpuStep_eq_fault {s : State} {hold : Bool} {r : Fault} (h : cpuStep hold s = .fault r) :
    s.sleeping = false ∧ fetch s = .error r := by
  obtain ⟨-, e⟩ | ⟨-, -, e⟩ | ⟨hs, -, r', hr, e⟩ | ⟨-, -, i, -, e⟩ := cpuStep_cases hold s
  · cases e.symm.trans h
  · cases e.symm.trans h
  · cases e.symm.trans h
    exact ⟨hs, hr⟩
  · rw [runInstr_eq] at e
    cases e.symm.trans h

theorem cpuStep_ne_refused (hold : Bool) (s : State) (r : Refusal) : cpuStep hold s ≠ .refused r := by
  intro h
  obtain ⟨-, e⟩ | ⟨-, -, e⟩ | ⟨-, -, r', -, e⟩ | ⟨-, -, i, -, e⟩ := cpuStep_cases hold s
  · cases e.symm.trans h
  · cases e.symm.trans h
  · cases e.symm.trans h
  · rw [runInstr_eq] at e
    cases e.symm.trans h

theorem step_ne_refused (s : State) (r : Refusal) : step s ≠ .refused r := by
  intro h
  obtain ⟨rest, ⟨hold, e⟩ | ⟨race, ev, e⟩⟩ := step_cases s
  · exact cpuStep_ne_refused hold _ r (e.symm.trans h)
  · cases e.symm.trans h

/-- A step stops only in an awake core at a fetch; the fetch does not look at the schedule. -/
theorem step_eq_fault {s : State} {r : Fault} (h : step s = .fault r) : s.sleeping = false ∧ fetch s = .error r := by
  obtain ⟨rest, ⟨hold, e⟩ | ⟨race, ev, e⟩⟩ := step_cases s
  · exact cpuStep_eq_fault (s := { s with env := rest }) (e.symm.trans h)
  · cases e.symm.trans h

/-- Settles O58: `step_eq_fault` with the three ways a fetch ends in a fault, each of which the step answers. -/
theorem stepStopsOnlyAtFetch : Obligations.StepStopsOnlyAtFetch := by
  intro s
  refine ⟨step_ne_refused s, fun r hr => ?_, fun he hs hi => ?_⟩
  · obtain ⟨hs, hf⟩ := step_eq_fault hr
    exact ⟨hs, fetch_error hf⟩
  · have stops {r : Fault} (hr : fetch s = .error r) : step s = .fault r :=
      (step_idle he).trans (cpuStep_fault hs (interruptDue_eq_false false (.inl hi)) hr)
    exact ⟨fun h => stops (fetch_outside h), fun h hw => stops (fetch_undefined h hw),
      fun w h hw hd => stops (fetch_unlisted h hw hd)⟩

/-- Settles O57: the step is `runInstr` of the decoded instruction, which `exec` answers with a next state. -/
theorem stepRunsDecodedInstruction : Obligations.StepRunsDecodedInstruction := by
  intro s i w he hs hi hpc hw hd
  rw [step_idle he, cpuStep_run hs (interruptDue_eq_false false hi) (fetch_decoded hpc hw hd), runInstr_eq, exec_eq_run]
  rfl

/-! ## TO, PD and the return stack over all instructions -/

@[simp] theorem finish_w (p : Bool) (s : State) : (finish p s).w = s.w := by cases p <;> rfl
@[simp] theorem finish_stk (p : Bool) (s : State) : (finish p s).stk = s.stk := by cases p <;> rfl
@[simp] theorem finish_sp (p : Bool) (s : State) : (finish p s).sp = s.sp := by cases p <;> rfl
@[simp] theorem finish_status (p : Bool) (s : State) : (finish p s).status = s.status := by cases p <;> rfl
@[simp] theorem finish_intcon (p : Bool) (s : State) : (finish p s).intcon = s.intcon := by cases p <;> rfl
@[simp] theorem finish_t0 (p : Bool) (s : State) : (finish p s).t0 = s.t0 := by cases p <;> rfl

@[simp] theorem finishSkip_w (p t : Bool) (s : State) : (finishSkip p t s).w = s.w := by
  cases p <;> cases t <;> rfl
@[simp] theorem finishSkip_stk (p t : Bool) (s : State) : (finishSkip p t s).stk = s.stk := by
  cases p <;> cases t <;> rfl
@[simp] theorem finishSkip_sp (p t : Bool) (s : State) : (finishSkip p t s).sp = s.sp := by
  cases p <;> cases t <;> rfl
@[simp] theorem finishSkip_status (p t : Bool) (s : State) : (finishSkip p t s).status = s.status := by
  cases p <;> cases t <;> rfl
@[simp] theorem finishSkip_intcon (p t : Bool) (s : State) : (finishSkip p t s).intcon = s.intcon := by
  cases p <;> cases t <;> rfl
@[simp] theorem finishSkip_t0 (p t : Bool) (s : State) : (finishSkip p t s).t0 = s.t0 := by
  cases p <;> cases t <;> rfl

@[simp] theorem fileEffect_stk (f : BitVec 7) (d : Dest) (fn : Byte → Alu) (s : State) :
    (fileEffect f d fn s).stk = s.stk := by
  cases d <;> simp [fileEffect, putResult]

@[simp] theorem fileEffect_sp (f : BitVec 7) (d : Dest) (fn : Byte → Alu) (s : State) :
    (fileEffect f d fn s).sp = s.sp := by
  cases d <;> simp [fileEffect, putResult]

/-- TO and PD of `t` are those of `s`. -/
def SameToPd (s t : State) : Prop :=
  t.status.getLsbD 4 = s.status.getLsbD 4 ∧ t.status.getLsbD 3 = s.status.getLsbD 3

theorem SameToPd.of_eq {s t : State} (h : t.status = s.status) : SameToPd s t := by
  rw [SameToPd, h]
  exact ⟨rfl, rfl⟩

theorem SameToPd.trans {s t u : State} (h : SameToPd s t) (k : SameToPd t u) : SameToPd s u :=
  ⟨k.1.trans h.1, k.2.trans h.2⟩

theorem writeBack_toPd (r : Reg) (v : Byte) (s : State) : SameToPd s (writeBack r v s) := memWrite_toPd r v s

/-- The operand's read leaves STATUS, the result's write and the flags leave TO and PD (R49, R50). -/
theorem fileEffect_toPd (f : BitVec 7) (d : Dest) (fn : Byte → Alu) (s : State) : SameToPd s (fileEffect f d fn s) := by
  have read : SameToPd s (readEffect (operandReg f s) s) := .of_eq (by simp)
  have written (v : Byte) : SameToPd s (putResult d (operandReg f s) v (readEffect (operandReg f s) s)) := by
    cases d with
    | toW => exact read
    | toF => exact read.trans (writeBack_toPd _ _ _)
  exact (written _).trans (putFlags_toPd _ _ _)

/-- CLRF's STATUS: Z is set, and of the other bits only the old C and DC come back (R204). -/
theorem clrfStatus_toPd (r : Reg) (old written : Byte) :
    (clrfStatus r old written).getLsbD 4 = written.getLsbD 4 ∧
      (clrfStatus r old written).getLsbD 3 = written.getLsbD 3 := by
  unfold clrfStatus
  rw [setBit_getLsbD (by decide), setBit_getLsbD (by decide)]
  by_cases h : r = .status <;> simp [h, merge]

theorem clearFile_toPd (f : BitVec 7) (s : State) : SameToPd s (clearFile f s) := by
  have h := clrfStatus_toPd (operandReg f s) s.status (fileWrite f 0x00 s).status
  have k := memWrite_toPd (operandReg f s) 0x00 s
  simp only [SameToPd, clearFile, finish_status]
  exact ⟨h.1.trans k.1, h.2.trans k.2⟩

theorem Shape.run_toPd (p : Shape) (s : State) (hc : p ≠ .clrwdt) (hs : p ≠ .sleep) : SameToPd s (p.run s) := by
  cases p with
  | file f d fn => exact (fileEffect_toPd f d fn s).trans (.of_eq (finish_status _ _))
  | skip f d fn => exact (fileEffect_toPd f d _ s).trans (.of_eq (finishSkip_status _ _ _))
  | test f b want => exact .of_eq (by simp [Shape.run, bitSkip])
  | clear f => exact clearFile_toPd f s
  | store f => exact SameToPd.trans (memWrite_toPd _ _ _) (.of_eq (finish_status _ _))
  | literal a => exact putFlags_toPd a.flags false { s with w := a.value }
  | nop | call k | goto k | ret | retlw k | retfie => exact .of_eq rfl
  | clrwdt => exact absurd rfl hc
  | sleep => exact absurd rfl hs
  | option => exact memWrite_toPd .option s.w s

theorem shapeOf_eq_clrwdt {i : Instr} {s : State} : shapeOf i s = .clrwdt ↔ i = .clrwdt := by
  cases i <;> simp [shapeOf]

theorem shapeOf_eq_sleep {i : Instr} {s : State} : shapeOf i s = .sleep ↔ i = .sleep := by
  cases i <;> simp [shapeOf]

theorem shapeOf_eq_retfie {i : Instr} {s : State} : shapeOf i s = .retfie ↔ i = .retfie := by
  cases i <;> simp [shapeOf]

theorem shapeOf_eq_ret {i : Instr} {s : State} : shapeOf i s = .ret ↔ i = .ret := by
  cases i <;> simp [shapeOf]

theorem shapeOf_eq_call {i : Instr} {s : State} {k : BitVec 11} : shapeOf i s = .call k ↔ i = .call k := by
  cases i <;> simp [shapeOf]

theorem shapeOf_eq_retlw {i : Instr} {s : State} {k : Byte} : shapeOf i s = .retlw k ↔ i = .retlw k := by
  cases i <;> simp [shapeOf]

/-- Settles O32, shape by shape. -/
theorem toPdWrittenOnlyByClrwdtSleep : Obligations.ToPdWrittenOnlyByClrwdtSleep := by
  intro i s t ht hc hs
  rw [← exec_next_iff.1 ht]
  exact Shape.run_toPd _ s (mt shapeOf_eq_clrwdt.1 hc) (mt shapeOf_eq_sleep.1 hs)

theorem goToSleep_stk (s : State) : (goToSleep s).stk = s.stk := by
  unfold goToSleep
  split <;> rfl

theorem goToSleep_sp (s : State) : (goToSleep s).sp = s.sp := by
  unfold goToSleep
  split <;> rfl

/-- Only a call writes an entry: a return moves the pointer (R42). -/
theorem Shape.run_stk (p : Shape) (s : State) (h : ∀ k, p ≠ .call k) : (p.run s).stk = s.stk := by
  cases p with
  | call k => exact absurd rfl (h k)
  | sleep => exact goToSleep_stk s
  | file | skip | test | clear | store | literal =>
    simp [Shape.run, fileOp, fileSkip, bitSkip, clearFile, fileWrite, literalOp]
  | option => exact memWrite_stk .option s.w s
  | nop | goto | ret | retlw | retfie | clrwdt => rfl

theorem Shape.run_sp (p : Shape) (s : State) (hc : ∀ k, p ≠ .call k) (hr : p ≠ .ret) (hi : p ≠ .retfie)
    (hl : ∀ k, p ≠ .retlw k) : (p.run s).sp = s.sp := by
  cases p with
  | call k => exact absurd rfl (hc k)
  | ret => exact absurd rfl hr
  | retfie => exact absurd rfl hi
  | retlw k => exact absurd rfl (hl k)
  | sleep => exact goToSleep_sp s
  | file | skip | test | clear | store | literal =>
    simp [Shape.run, fileOp, fileSkip, bitSkip, clearFile, fileWrite, literalOp]
  | option => exact memWrite_sp .option s.w s
  | nop | goto | clrwdt => rfl

/-- Settles O33, shape by shape. -/
theorem stackTouchedOnlyByCallAndReturns : Obligations.StackTouchedOnlyByCallAndReturns := by
  intro i s t ht
  rw [← exec_next_iff.1 ht]
  exact ⟨fun hc => Shape.run_stk _ s fun k => mt shapeOf_eq_call.1 (hc k),
    fun hc hr hi hl => Shape.run_sp _ s (fun k => mt shapeOf_eq_call.1 (hc k)) (mt shapeOf_eq_ret.1 hr)
      (mt shapeOf_eq_retfie.1 hi) fun k => mt shapeOf_eq_retlw.1 (hl k)⟩

/-! ## The frame over all instructions -/

/-- `t` has the registers of data memory of `s`, but for INTCON, TMR0 and STATUS, and but for what a read moves: the compared
pins and comparator outputs and the receive buffer (20_memory.md R112). -/
structure RegistersKept (s t : State) : Prop where
  ram : t.ram = s.ram
  fsr : t.fsr = s.fsr
  pclath : t.pclath = s.pclath
  pir1 : t.pir1 = s.pir1
  pie1 : t.pie1 = s.pie1
  option : t.option = s.option
  pcon : t.pcon = s.pcon
  t1 : t.t1 = s.t1
  t2 : t.t2 = s.t2
  ccp : t.ccp = s.ccp
  ee : t.ee = s.ee
  io : t.io = { s.io with change := t.io.change }
  cmp : t.cmp = { s.cmp with last := t.cmp.last }
  usart : t.usart = { s.usart with fifo := t.usart.fifo, drained := t.usart.drained, rcsta := t.usart.rcsta }

theorem RegistersKept.refl (s : State) : RegistersKept s s := by constructor <;> rfl

theorem RegistersKept.trans {s t u : State} (h : RegistersKept s t) (k : RegistersKept t u) : RegistersKept s u where
  ram := k.ram.trans h.ram
  fsr := k.fsr.trans h.fsr
  pclath := k.pclath.trans h.pclath
  pir1 := k.pir1.trans h.pir1
  pie1 := k.pie1.trans h.pie1
  option := k.option.trans h.option
  pcon := k.pcon.trans h.pcon
  t1 := k.t1.trans h.t1
  t2 := k.t2.trans h.t2
  ccp := k.ccp.trans h.ccp
  ee := k.ee.trans h.ee
  io := k.io.trans (by rw [h.io])
  cmp := k.cmp.trans (by rw [h.cmp])
  usart := k.usart.trans (by rw [h.usart])

theorem popRx_kept (u : Usart) :
    popRx u = { u with fifo := (popRx u).fifo, drained := (popRx u).drained, rcsta := (popRx u).rcsta } := by
  unfold popRx
  split <;> rfl

theorem readEffect_kept (r : Reg) (s : State) : RegistersKept s (readEffect r s) := by
  unfold readEffect
  split
  · split
    · constructor <;> rfl
    · exact { RegistersKept.refl s with usart := popRx_kept s.usart }
  · constructor <;> rfl
  · constructor <;> rfl
  · exact .refl s

theorem putFlags_kept (u : FlagUpdate) (b : Bool) (s : State) : RegistersKept s (putFlags u b s) := by
  constructor <;> simp

theorem finish_kept (p : Bool) (s : State) : RegistersKept s (finish p s) := by
  cases p <;> constructor <;> rfl

theorem finishSkip_kept (p t : Bool) (s : State) : RegistersKept s (finishSkip p t s) := by
  cases p <;> cases t <;> constructor <;> rfl

theorem goToSleep_kept (s : State) : RegistersKept s (goToSleep s) := by
  unfold goToSleep
  split <;> constructor <;> rfl

/-- With W as the destination only the read touches a register. -/
theorem fileEffect_toW_kept (f : BitVec 7) (fn : Byte → Alu) (s : State) : RegistersKept s (fileEffect f .toW fn s) := by
  have toW (v : Byte) (x : State) : RegistersKept x { x with w := v } := by constructor <;> rfl
  exact ((readEffect_kept _ s).trans (toW _ _)).trans (putFlags_kept _ _ _)

theorem Shape.run_kept (p : Shape) (s : State) (h : p.storeReg s = none) : RegistersKept s (p.run s) := by
  cases p with
  | file f d fn =>
    cases d with
    | toW => exact (fileEffect_toW_kept f fn s).trans (finish_kept (wrotePcl .toW (operandReg f s)) _)
    | toF => cases h
  | skip f d fn =>
    cases d with
    | toW =>
      simp only [Shape.run, fileSkip]
      exact (fileEffect_toW_kept f _ s).trans (finishSkip_kept _ _ _)
    | toF => cases h
  | test f b want =>
    simp only [Shape.run, bitSkip]
    exact (readEffect_kept _ s).trans (finishSkip_kept _ _ _)
  | clear f => cases h
  | store f => cases h
  | option => cases h
  | literal a =>
    have k : RegistersKept s { s with w := a.value } := by constructor <;> rfl
    exact (k.trans (putFlags_kept a.flags false _)).trans (finish_kept false _)
  | sleep => exact goToSleep_kept s
  | nop | call | goto | ret | retlw | retfie | clrwdt => constructor <;> rfl

theorem fileEffect_toW_intcon (f : BitVec 7) (fn : Byte → Alu) (s : State) :
    (fileEffect f .toW fn s).intcon = s.intcon := by
  simp [fileEffect, putResult]

theorem fileEffect_toW_t0 (f : BitVec 7) (fn : Byte → Alu) (s : State) : (fileEffect f .toW fn s).t0 = s.t0 := by
  simp [fileEffect, putResult]

theorem goToSleep_intcon (s : State) : (goToSleep s).intcon = s.intcon := by
  unfold goToSleep
  split <;> rfl

/-- RETFIE alone sets GIE (R268). -/
theorem Shape.run_intcon (p : Shape) (s : State) (h : p.storeReg s = none) (hr : p ≠ .retfie) :
    (p.run s).intcon = s.intcon := by
  cases p with
  | file f d fn =>
    cases d with
    | toW => simp [Shape.run, fileOp, fileEffect_toW_intcon]
    | toF => cases h
  | skip f d fn =>
    cases d with
    | toW => simp [Shape.run, fileSkip, fileEffect_toW_intcon]
    | toF => cases h
  | clear f => cases h
  | store f => cases h
  | option => cases h
  | retfie => exact absurd rfl hr
  | test | literal => simp [Shape.run, bitSkip, literalOp]
  | sleep => exact goToSleep_intcon s
  | nop | call | goto | ret | retlw | clrwdt => rfl

/-- CLRWDT and SLEEP alone clear the prescaler (R264, R271). -/
theorem Shape.run_t0 (p : Shape) (s : State) (h : p.storeReg s = none) (hc : p ≠ .clrwdt) (hs : p ≠ .sleep) :
    (p.run s).t0 = s.t0 := by
  cases p with
  | file f d fn =>
    cases d with
    | toW => simp [Shape.run, fileOp, fileEffect_toW_t0]
    | toF => cases h
  | skip f d fn =>
    cases d with
    | toW => simp [Shape.run, fileSkip, fileEffect_toW_t0]
    | toF => cases h
  | clear f => cases h
  | store f => cases h
  | option => cases h
  | clrwdt => exact absurd rfl hc
  | sleep => exact absurd rfl hs
  | test | literal => simp [Shape.run, bitSkip, literalOp]
  | nop | call | goto | ret | retlw | retfie => rfl

theorem fileEffect_toF_w (f : BitVec 7) (fn : Byte → Alu) (s : State) : (fileEffect f .toF fn s).w = s.w := by
  simp [fileEffect, putResult]

theorem goToSleep_w (s : State) : (goToSleep s).w = s.w := by
  unfold goToSleep
  split <;> rfl

theorem Shape.run_w (p : Shape) (s : State) (h : p.writesW = false) : (p.run s).w = s.w := by
  cases p with
  | file f d fn =>
    cases d with
    | toW => cases h
    | toF => simp [Shape.run, fileOp, fileEffect_toF_w]
  | skip f d fn =>
    cases d with
    | toW => cases h
    | toF => simp [Shape.run, fileSkip, fileEffect_toF_w]
  | literal a => cases h
  | retlw k => cases h
  | test | clear | store => simp [Shape.run, bitSkip, clearFile, fileWrite]
  | sleep => exact goToSleep_w s
  | option => exact memWrite_w .option s.w s
  | nop | call | goto | ret | retfie | clrwdt => rfl

/-! ## What a store and a read leave alone -/

/-- A write of PORTB keeps the compared value or makes it the pin levels (log 33). -/
theorem writePortb_change (v : Byte) (s : State) :
    (writePortb v s).io.change = s.io.change ∨ (writePortb v s).io.change = pinsB s := by
  unfold writePortb
  simp only
  split
  · exact .inl rfl
  · dsimp only
    split
    · exact .inr rfl
    · exact .inl rfl

/-- Everything a write of OPTION can do: a spurious increment of Timer0 may follow (log 21). -/
theorem writeOption_eq (v : Byte) (s : State) :
    writeOption v s =
      { s with
        option := v
        t0 := { s.t0 with tmr0 := (writeOption v s).t0.tmr0 }
        intcon := (writeOption v s).intcon
        freeIx := (writeOption v s).freeIx } := by
  unfold writeOption
  simp only
  split
  · split
    · rw [tmr0Tick_eq]
      rfl
    · rfl
  · rfl

/-- With PSA as it was there is no increment (R345). -/
theorem writeOption_same_psa {v : Byte} {s : State} (h : v.getLsbD 3 = s.psa) :
    writeOption v s = { s with option := v } := by
  simp only [writeOption, h, ne_eq, not_true_eq_false, false_and, if_false]

/-- Everything a write of EECON1 can do. -/
theorem writeEecon1_eq (v : Byte) (s : State) :
    writeEecon1 v s =
      { s with
        ee :=
          { s.ee with
            con1 := v &&& 0x0C
            data := (writeEecon1 v s).ee.data
            unlock := (writeEecon1 v s).ee.unlock
            write := (writeEecon1 v s).ee.write }
        freeIx := (writeEecon1 v s).freeIx } := by
  unfold writeEecon1 eeRead eeStart
  simp only
  repeat' split
  all_goals rfl

/-- Without RD and WR a write of EECON1 stores WRERR and WREN alone (R64). -/
theorem writeEecon1_store {v : Byte} (s : State) (h : v &&& 0x03 = 0) :
    writeEecon1 v s = { s with ee := { s.ee with con1 := v &&& 0x0C } } := by
  have rd : v.getLsbD 0 = false := by simpa using congrArg (·.getLsbD 0) h
  have wr : v.getLsbD 1 = false := by simpa using congrArg (·.getLsbD 1) h
  simp only [writeEecon1, rd, wr, Bool.false_eq_true, if_false]

/-- A write of TXREG clears TXIF alone of PIR1 (R113). -/
theorem setBit_txif (v : Byte) : setBit v 4 false = v &&& 0xEF := rfl

/-- A write of RCSTA ends the stop of reception exactly if CREN is written 1 and OERR has been cleared (log 55). -/
theorem writeRcsta_rxStopped (v : Byte) (s : State) :
    (writeRcsta v s).usart.rxStopped = true ↔
      s.usart.rxStopped = true ∧ (v.getLsbD 4 = false ∨ s.usart.rcsta.getLsbD 1 = true) := by
  rw [(writeRcsta_getLsbD v s).2.2]
  cases v.getLsbD 4 <;> cases s.usart.rcsta.getLsbD 1 <;> simp

theorem memWrite_storeFrame (r : Reg) (v : Byte) (s : State) : StoreFrame r v s (memWrite r v s) := by
  cases r with
  | portb => exact ⟨writePortb_eq v s, writePortb_change v s⟩
  | ccpr1h =>
    simp only [StoreFrame, memWrite]
    split <;> rfl
  | ccp1con => exact ⟨rfl, rfl⟩
  | rcsta => exact ⟨rfl, writeRcsta_rxStopped v s⟩
  | option => exact ⟨writeOption_eq v s, writeOption_same_psa⟩
  | eecon1 => exact ⟨writeEecon1_eq v s, writeEecon1_store s⟩
  | _ => rfl

/-- The bits of a byte with bit `i` set if there is a value for it. -/
theorem setBit?_getLsbD {i : Nat} (hi : i < 8) (j : Nat) (o : Option Bool) (v : Byte) :
    (setBit? v i o).getLsbD j = if j = i then o.getD (v.getLsbD i) else v.getLsbD j := by
  cases o with
  | none => by_cases h : j = i <;> simp [setBit?, h]
  | some b => rw [setBit?, setBit_getLsbD hi, Option.getD_some]

/-- The head's status changes FERR and RX9D alone: FERR is the byte's, and RX9D too if nine bits were received (R366). -/
theorem headStatus_bits (b : RxByte) (v : Byte) :
    headStatus b v &&& 0xFA = v &&& 0xFA ∧ (headStatus b v).getLsbD 2 = b.framing ∧
      ∀ n, b.ninth = some n → (headStatus b v).getLsbD 0 = n := by
  refine ⟨?_, ?_, fun n hn => ?_⟩
  · ext i hi
    have mask : i = 0 ∨ i = 2 → (0xFA : Byte).getLsbD i = false := by rintro (rfl | rfl) <;> rfl
    simp only [← BitVec.getLsbD_eq_getElem, BitVec.getLsbD_and]
    by_cases h : i = 0 ∨ i = 2
    · rw [mask h, Bool.and_false, Bool.and_false]
    · rw [not_or] at h
      rw [headStatus_getLsbD b v h.1 h.2]
  · rw [headStatus, setBit?_getLsbD (by decide), if_neg (by decide), setBit_getLsbD (by decide), if_pos rfl]
  · rw [headStatus, hn, setBit?_getLsbD (by decide), if_pos rfl, Option.getD_some]

/-- An empty RCREG gives any value and stays as it is (U19). -/
theorem readEffect_rcreg_empty {s : State} (h : s.usart.fifo = []) :
    readEffect .rcreg s = { s with freeIx := (readEffect .rcreg s).freeIx } := by
  simp only [readEffect, popRx, h]
  split <;> rfl

theorem readEffect_rcreg_last {s : State} {b : RxByte} (h : s.usart.fifo = [b]) :
    readEffect .rcreg s = { s with usart := { s.usart with fifo := [], drained := true } } := by
  simp [readEffect, openRcreg, popRx, h]

/-- The next byte comes to the head with its FERR and RX9D (R366). -/
theorem readEffect_rcreg_next {s : State} {a b : RxByte} {rest : List RxByte} (h : s.usart.fifo = a :: b :: rest) :
    readEffect .rcreg s =
      { s with
        usart := { s.usart with fifo := b :: rest, drained := true, rcsta := headStatus b s.usart.rcsta } } := by
  simp [readEffect, openRcreg, popRx, h]

theorem readEffect_readFrame (r : Reg) (s : State) : ReadFrame r s (readEffect r s) := by
  cases r with
  | rcreg =>
    simp only [ReadFrame]
    split
    case h_1 h => exact readEffect_rcreg_empty h
    case h_2 h => exact readEffect_rcreg_last h
    case h_3 b rest h =>
      obtain ⟨hm, h2, h0⟩ := headStatus_bits b s.usart.rcsta
      rw [readEffect_rcreg_next h]
      exact ⟨rfl, hm, h2, h0, rfl⟩
  | _ => rfl

/-- RCREG gives the oldest byte of a buffer that holds one (R366). -/
theorem readValue_rcreg {s : State} {b : RxByte} {rest : List RxByte} (h : s.usart.fifo = b :: rest) :
    readValue .rcreg s = b.data := by
  simp [readValue, openRcreg, peek, h]

/-- Settles O36: `Shape.run_w`, `Shape.run_kept`, `Shape.run_intcon` and `Shape.run_t0` for the instructions, and one frame for
each store and each read. -/
theorem registersFrame : Obligations.RegistersFrame := by
  refine ⟨fun i s t ht => ?_, memWrite_storeFrame, readEffect_readFrame, fun s b rest => readValue_rcreg⟩
  obtain rfl := exec_next_iff.1 ht
  refine ⟨fun hw => Shape.run_w _ s (by rwa [← writesW_eq_shape i s]), fun hr => ?_⟩
  rw [storeReg_eq_shape] at hr
  have k := Shape.run_kept _ s hr
  exact ⟨k.ram, k.fsr, k.pclath, k.pir1, k.pie1, k.option, k.pcon, k.t1, k.t2, k.ccp, k.ee, k.io, k.cmp, k.usart,
    fun h => Shape.run_intcon _ s hr (mt shapeOf_eq_retfie.1 h),
    fun hc hs => Shape.run_t0 _ s hr (mt shapeOf_eq_clrwdt.1 hc) (mt shapeOf_eq_sleep.1 hs)⟩

/-! ## Reads and writes of single registers -/

/-- A write to a general purpose byte is read back there and nowhere else. -/
theorem peek_writeGpr_other {r : Reg} {a : Nat} (h : r ≠ .gpr a) (v : Byte) (s : State) :
    peek r (memWrite (.gpr a) v s) = peek r s := by
  cases r with
  | gpr b => exact Memory.read_write_other (fun e => h (congrArg Reg.gpr e)) s.ram
  | _ => rfl

/-- Settles O8: the canonical form of RAM makes the read after the write exact. -/
theorem generalByteWriteThenRead : Obligations.GeneralByteWriteThenRead := by
  intro s a v h
  exact ⟨Memory.read_write_self (Bool.and_eq_true_iff.1 h.ram_wf).1, fun r hr => peek_writeGpr_other hr v s, rfl⟩

/-- The registers with unimplemented bits and the masks of those bits (R92). -/
def unimplementedBits : List (Reg × Byte) :=
  [(.t1con, 0xC0), (.pir1, 0x08), (.pie1, 0x08), (.t2con, 0x80), (.ccp1con, 0xC0), (.txsta, 0x08), (.pclath, 0xE0),
    (.trisa, 0x20), (.pcon, 0xF4), (.eecon1, 0xF0), (.vrcon, 0x10)]

/-- A part of a mask of bits that are 0. -/
theorem and_zero_of_subset {v m k : Byte} (h : v &&& m = 0) (hk : m &&& k = k) : v &&& k = 0 := by
  rw [← hk, ← BitVec.and_assoc, h]
  exact BitVec.zero_and

theorem pclath_read_masked (v : BitVec 5) : v.setWidth 8 &&& 0xE0#8 = 0 := by
  revert v
  decide

/-- The invariant makes the unimplemented bits 0. -/
theorem unimplementedBits_read_zero {s : State} (h : s.Inv) : ∀ p ∈ unimplementedBits, peek p.1 s &&& p.2 = 0 := by
  simp only [unimplementedBits, List.forall_mem_cons]
  refine ⟨h.t1.1, setBit_and_zero (and_zero_of_subset h.pir1 (by decide)) (by decide), h.pie1, h.t2.1, h.ccp.1,
    setBit_and_zero h.usart.1 (by decide), pclath_read_masked s.pclath, h.io, h.pcon,
    setBit_and_zero (and_zero_of_subset h.ee.1 (by decide)) (by decide), h.cmp, fun _ k => nomatch k⟩

theorem unimplementedBits_ne_gpr : ∀ p ∈ unimplementedBits, ∀ a, p.1 = .gpr a → gprAddr a = true := by
  simp [unimplementedBits]

/-- Settles O10: a write keeps the invariant, and in a state that meets it the bits read 0. -/
theorem unimplementedBitsReadZero : Obligations.UnimplementedBitsReadZero := by
  intro s h p hp
  exact ⟨unimplementedBits_read_zero h p hp,
    fun v => unimplementedBits_read_zero (memWrite_inv (unimplementedBits_ne_gpr p hp) v h) p hp⟩

/-! ## PCL -/

theorem peek_pcl_toNat (s : State) : (peek .pcl s).toNat = (s.pc.toNat + 1) % 256 := by
  simp only [peek, BitVec.extractLsb'_toNat, BitVec.toNat_add]
  simp

/-- PCLATH : v as a number (R38). -/
theorem pclath_append_toNat (p : BitVec 5) (v : Byte) : (p ++ v).toNat = p.toNat * 256 + v.toNat := by
  rw [BitVec.toNat_append, Nat.shiftLeft_eq, Nat.mul_comm]
  exact (Nat.two_pow_add_eq_or_of_lt v.isLt p.toNat).symm

/-- ADDWF PCL, 1 is a jump to PCLATH : (PCL + W) (R39). -/
theorem addwf_pcl {s : State} {f : BitVec 7} (h : operandReg f s = .pcl) :
    exec (.addwf f .toF) s =
      .next { s with
        pc := s.pclath ++ (s.w + peek .pcl s)
        status := (add s.w (peek .pcl s)).flags.apply s.status
        cycles := 2
        rmw := .none } := by
  have hf := fileOp_all f .toF (fun v => add s.w v) s _ _ _ rfl
  rw [exec, execAddwf, hf, h]
  simp [afterFile, readEffect, readValue, add, apply_all]

/-- MOVWF PCL is a jump to PCLATH : W (R38). -/
theorem movwf_pcl {s : State} {f : BitVec 7} (h : operandReg f s = .pcl) :
    exec (.movwf f) s = .next (jump (s.pclath ++ s.w) s) := by
  rw [exec, execMovwf, fileWrite, h]
  rfl

/-- Settles O11. -/
theorem pclReadAndComputedJump : Obligations.PclReadAndComputedJump := by
  intro s f
  refine ⟨peek_pcl_toNat s, fun h => ⟨⟨_, addwf_pcl h, rfl, rfl, ?_⟩, ⟨_, movwf_pcl h, rfl, rfl, ?_⟩⟩⟩
  · rw [pclath_append_toNat, BitVec.toNat_add, peek_pcl_toNat]
    omega
  · exact pclath_append_toNat s.pclath s.w

/-! ## The pins of PORTB -/

/-- A merged byte takes the bits of the new one where the mask has 1. -/
theorem merge_getLsbD (m o n : Byte) {i : Nat} (hi : i < 8) :
    (merge m o n).getLsbD i = if m.getLsbD i then n.getLsbD i else o.getLsbD i := by
  simp only [merge, BitVec.getLsbD_or, BitVec.getLsbD_and, BitVec.getLsbD_not, hi, decide_true]
  cases m.getLsbD i <;> simp

theorem inputsB_getLsbD (s : State) {i : Nat} (hi : i < 8) :
    (inputsB s).getLsbD i = (s.io.trisB.getLsbD i || (s.t1oscen && decide (6 ≤ i))) := by
  have mask : ∀ i < 8, (0xC0 : Byte).getLsbD i = decide (6 ≤ i) := by decide
  unfold inputsB
  cases s.t1oscen <;>
    simp only [if_true, Bool.false_eq_true, if_false, BitVec.getLsbD_or, mask i hi, Bool.true_and, Bool.false_and,
      Bool.or_false]

/-- The modes in which the CCP1 output drives RB3 (log 29). -/
abbrev ccpDrives (s : State) : Prop := 12 ≤ s.ccpMode ∨ s.ccpMode = 8 ∨ s.ccpMode = 9

theorem pwm_iff (s : State) : s.pwm = true ↔ 12 ≤ s.ccpMode := by
  have table : ∀ v : Byte, (v.getLsbD 3 && v.getLsbD 2) = true ↔ 12 ≤ (v.extractLsb' 0 4).toNat := by decide +kernel
  exact table s.ccp.con

theorem driveB_getLsbD (s : State) {i : Nat} :
    (driveB s).getLsbD i = if i = 3 ∧ ccpDrives s then s.ccp.out else s.io.latB.getLsbD i := by
  have drives : (s.pwm || s.ccpMode == 0b1000 || s.ccpMode == 0b1001) = true ↔ ccpDrives s := by
    simp only [Bool.or_eq_true, pwm_iff, beq_iff_eq, or_assoc, ccpDrives]
  unfold driveB
  by_cases hd : ccpDrives s
  · rw [if_pos (drives.2 hd), setBit_getLsbD (by decide)]
    simp [hd]
  · rw [if_neg (mt drives.1 hd)]
    simp [hd]

/-- Settles O13: the pins bit by bit, from what is an input and what the chip drives. -/
theorem pinLevelsFollowDirection : Obligations.PinLevelsFollowDirection := by
  intro s i hi
  have input : (inputsB s ||| s.io.forceB).getLsbD i = true ↔
      s.io.trisB.getLsbD i = true ∨ (s.t1.con.getLsbD 3 = true ∧ 6 ≤ i) ∨ s.io.forceB.getLsbD i = true := by
    simp only [BitVec.getLsbD_or, inputsB_getLsbD s hi, Bool.or_eq_true, Bool.and_eq_true, decide_eq_true_eq, or_assoc]
  rw [pinsB, merge_getLsbD _ _ _ hi, driveB_getLsbD]
  exact if_congr input rfl rfl

/-! ## The return stack -/

/-- The entry of the return stack at an index. -/
def entry (s : State) (k : BitVec 3) : CodeAddr := s.stk[k.toNat]'k.isLt

theorem tos_eq_entry (s : State) : tos s = entry s (s.sp - 1) := rfl

theorem entry_push (v : CodeAddr) (s : State) (k : BitVec 3) :
    entry (push v s) k = if k = s.sp then v else entry s k := by
  unfold entry
  simp only [push_stk, Vector.getElem_set, BitVec.toNat_inj, eq_comm]

theorem ofNat_succ_eq (n : Nat) : BitVec.ofNat 3 (n + 1) = 1 + BitVec.ofNat 3 n := by
  rw [Nat.add_comm, BitVec.ofNat_add]
  rfl

/-- A pointer moved on by one to seven places is another one. -/
theorem pointer_ne_later (p : BitVec 3) {j : Nat} (h : j < 7) : p ≠ p + 1 + BitVec.ofNat 3 j := by
  bv_omega

/-- Back by `i + 1` places of eight is on by the rest. -/
theorem pointer_back_eq (p : BitVec 3) {i : Nat} (h : i < 8) :
    p - BitVec.ofNat 3 i - 1 = p + BitVec.ofNat 3 (7 - i) := by
  bv_omega

/-- All the values of a list pushed, the first one first. -/
def pushAll (vs : List CodeAddr) (s : State) : State := vs.foldl (fun x a => push a x) s

theorem pushAll_cons (v : CodeAddr) (vs : List CodeAddr) (s : State) : pushAll (v :: vs) s = pushAll vs (push v s) := rfl

theorem pushAll_sp (vs : List CodeAddr) (s : State) : (pushAll vs s).sp = s.sp + BitVec.ofNat 3 vs.length := by
  induction vs generalizing s with
  | nil => simp [pushAll]
  | cons v vs ih => rw [pushAll_cons, ih, push_sp, List.length_cons, ofNat_succ_eq, BitVec.add_assoc]

/-- Pushes leave an entry that none of them reaches. -/
theorem entry_pushAll_other {vs : List CodeAddr} {s : State} {k : BitVec 3}
    (h : ∀ j < vs.length, k ≠ s.sp + BitVec.ofNat 3 j) : entry (pushAll vs s) k = entry s k := by
  induction vs generalizing s with
  | nil => rfl
  | cons v vs ih =>
    have head : k ≠ s.sp := by simpa using h 0 (by simp)
    rw [pushAll_cons, ih, entry_push, if_neg head]
    intro j hj
    have := h (j + 1) (by simpa using hj)
    rwa [ofNat_succ_eq, ← BitVec.add_assoc] at this

/-- Up to eight pushes stand in the entries from the pointer on (R41). -/
theorem entry_pushAll {vs : List CodeAddr} {s : State} (hl : vs.length ≤ 8) {i : Nat} (hi : i < vs.length) :
    entry (pushAll vs s) (s.sp + BitVec.ofNat 3 i) = vs[i] := by
  induction vs generalizing s i with
  | nil => cases hi
  | cons v vs ih =>
    rw [List.length_cons] at hl hi
    rw [pushAll_cons]
    cases i with
    | zero =>
      rw [BitVec.add_zero, entry_pushAll_other, entry_push, if_pos rfl]
      · rfl
      · exact fun j hj => pointer_ne_later s.sp (by omega)
    | succ i =>
      rw [ofNat_succ_eq, ← BitVec.add_assoc]
      exact ih (s := push v s) (by omega) (by omega)

theorem pop_iterate (n : Nat) (s : State) : pop^[n] s = { s with sp := s.sp - BitVec.ofNat 3 n } := by
  induction n generalizing s with
  | zero => simp
  | succ n ih =>
    rw [Function.iterate_succ_apply, ih, pop_sp, BitVec.sub_sub, ← ofNat_succ_eq]
    rfl

/-- The top after `i` pops is the entry `i + 1` places back. -/
theorem tos_pop_iterate (i : Nat) (s : State) : tos (pop^[i] s) = entry s (s.sp - BitVec.ofNat 3 i - 1) := by
  rw [pop_iterate]
  rfl

/-- Eight pushes come back in reverse order. -/
theorem tos_pop_pushAll {vs : List CodeAddr} (s : State) (hl : vs.length = 8) {i : Nat} (hi : i < 8) :
    vs.reverse[i]? = some (tos (pop^[i] (pushAll vs s))) := by
  have sp : (pushAll vs s).sp = s.sp := by
    rw [pushAll_sp, hl]
    exact BitVec.add_zero _
  rw [tos_pop_iterate, sp, pointer_back_eq _ hi, entry_pushAll hl.le (by omega)]
  rw [List.getElem?_reverse (by omega), List.getElem?_eq_getElem (by omega)]
  simp [hl]

/-- Settles O34: pushes stand in consecutive entries, and pops read them from the last one back. -/
theorem stackPushPop : Obligations.StackPushPop := by
  intro s v
  refine ⟨fun vs hl => ⟨?_, fun i hi => tos_pop_pushAll s hl hi, ?_⟩, ?_, fun n h hn => ?_, rfl, rfl⟩
  · exact (pushAll_sp vs s).trans (by rw [hl]; exact BitVec.add_zero _)
  · rw [tos_pop_iterate, tos_eq_entry]
    exact congrArg (fun k => entry _ (k - 1)) (BitVec.sub_zero _)
  · rw [tos_eq_entry, entry_push, push_sp]
    exact if_pos (BitVec.add_sub_cancel s.sp 1)
  · exact Vector.getElem_set_ne s.sp.isLt h (Ne.symm hn)

/-! ## STATUS as the destination -/

/-- Flags reach no bit above Z (R44). -/
theorem apply_getLsbD_high (u : FlagUpdate) (st : Byte) {j : Nat} (h : 3 ≤ j) :
    (u.apply st).getLsbD j = st.getLsbD j := by
  unfold FlagUpdate.apply
  rw [setBit?_getLsbD (by decide), if_neg (by omega), setBit?_getLsbD (by decide), if_neg (by omega),
    setBit?_getLsbD (by decide), if_neg (by omega)]

/-- Each flag with a value takes it, the others stay (R44). -/
theorem apply_getLsbD_flags (u : FlagUpdate) (st : Byte) :
    (u.apply st).getLsbD 2 = u.z.getD (st.getLsbD 2) ∧ (u.apply st).getLsbD 1 = u.dc.getD (st.getLsbD 1) ∧
      (u.apply st).getLsbD 0 = u.c.getD (st.getLsbD 0) := by
  simp only [FlagUpdate.apply, setBit?_getLsbD (show 0 < 8 by decide), setBit?_getLsbD (show 1 < 8 by decide),
    setBit?_getLsbD (show 2 < 8 by decide)]
  exact ⟨rfl, rfl, rfl⟩

theorem apply_extractLsb'_high (u : FlagUpdate) (st : Byte) {i : Nat} (h : 3 ≤ i) (n : Nat) :
    (u.apply st).extractLsb' i n = st.extractLsb' i n := by
  ext j hj
  rw [BitVec.getElem_extractLsb', BitVec.getElem_extractLsb', apply_getLsbD_high u st (by omega)]

/-- The flags put are the listed ones with their values, and for the others any (R50, U6). -/
theorem putFlags_status (u : FlagUpdate) (b : Bool) (s : State) :
    ∃ u' : FlagUpdate, (putFlags u b s).status = u'.apply s.status ∧ (∀ v, u.z = some v → u'.z = some v) ∧
      (∀ v, u.dc = some v → u'.dc = some v) ∧ (∀ v, u.c = some v → u'.c = some v) := by
  have keeps (x : Byte) (i : Nat) (o : Option Bool) (v : Bool) (h : o = some v) : openFlag x i o = some v := by
    rw [h, openFlag]
  unfold putFlags
  split
  case isTrue h => exact ⟨noFlags, rfl, by simp [h, noFlags]⟩
  case isFalse =>
    split
    · exact ⟨u.opened s.free, rfl, keeps _ _ _, keeps _ _ _, keeps _ _ _⟩
    · exact ⟨u, rfl, fun _ h => h, fun _ h => h, fun _ h => h⟩

/-- Everything that putting flags can do. -/
theorem putFlags_eq (u : FlagUpdate) (b : Bool) (s : State) :
    putFlags u b s = { s with status := (putFlags u b s).status, freeIx := (putFlags u b s).freeIx } := by
  unfold putFlags
  split
  · rfl
  · split <;> rfl

/-- A write of STATUS takes bits 7:5 and leaves TO and PD (R50). -/
theorem merge_status_bits (old v : Byte) :
    (merge 0xE7 old v).extractLsb' 5 3 = v.extractLsb' 5 3 ∧
      (merge 0xE7 old v).extractLsb' 3 2 = old.extractLsb' 3 2 := by
  have mask : ∀ i < 3, (0xE7 : Byte).getLsbD (5 + i) = true := by decide
  have kept : ∀ i < 2, (0xE7 : Byte).getLsbD (3 + i) = false := by decide
  constructor
  · ext i hi
    simp only [BitVec.getElem_extractLsb', merge_getLsbD _ _ _ (show 5 + i < 8 by omega), mask i hi, if_true]
  · ext i hi
    simp only [BitVec.getElem_extractLsb', merge_getLsbD _ _ _ (show 3 + i < 8 by omega), kept i hi,
      Bool.false_eq_true, if_false]

/-- An `f, d` instruction with d = 1 whose operand is STATUS. -/
theorem fileOp_status {f : BitVec 7} {s : State} (fn : Byte → Alu) (h : operandReg f s = .status) :
    StatusWritten (fn s.status).value (fn s.status).flags.c (fn s.status).flags.dc (fn s.status).flags.z s
      (fileOp f .toF fn s) := by
  have e : fileOp f .toF fn s = advance (putFlags (fn s.status).flags true
      (writeBack .status (fn s.status).value s)) := by
    rw [fileOp, fileEffect, h]
    rfl
  obtain ⟨u, hu, hz, hdc, hc⟩ :=
    putFlags_status (fn s.status).flags true (writeBack .status (fn s.status).value s)
  obtain ⟨z, dc, c⟩ := apply_getLsbD_flags u (writeBack .status (fn s.status).value s).status
  obtain ⟨mhi, mmid⟩ := merge_status_bits s.status (fn s.status).value
  rw [e]
  unfold StatusWritten State.z State.dc State.c
  rw [advance_status, hu]
  refine ⟨(apply_extractLsb'_high u _ (by decide) 3).trans mhi, (apply_extractLsb'_high u _ (by decide) 2).trans mmid,
    fun b hb => ?_, fun b hb => ?_, fun b hb => ?_, ?_⟩
  · rw [z, hz b hb, Option.getD_some]
  · rw [dc, hdc b hb, Option.getD_some]
  · rw [c, hc b hb, Option.getD_some]
  rw [putFlags_eq, hu]
  rfl

/-- The same for an instruction that affects Z alone. -/
theorem fileOp_status_withZ {f : BitVec 7} {s : State} (fn : Byte → Byte) (p : Prop) [Decidable p]
    (h : operandReg f s = .status) (hz : fn s.status = 0 ↔ p) :
    StatusWritten (fn s.status) none none (some (decide p)) s (fileOp f .toF (fun v => withZ (fn v)) s) := by
  have k := fileOp_status (fun v => withZ (fn v)) h
  simp only [withZ, zeroOf, beq_eq_decide, hz] at k
  exact k

theorem rotateLeft_value (v : Byte) :
    (rotateLeft (v.getLsbD 0) v).value = BitVec.ofNat 8 ((2 * v.toNat + v.toNat % 2) % 256) := by
  revert v
  decide +kernel

theorem rotateRight_value (v : Byte) :
    (rotateRight (v.getLsbD 0) v).value = BitVec.ofNat 8 ((v.toNat + 256 * (v.toNat % 2)) / 2) := by
  revert v
  decide +kernel

theorem not_eq_zero_iff (v : Byte) : ~~~v = 0 ↔ v = 0xFF := by bv_omega

theorem add_one_eq_zero_iff (v : Byte) : v + 1 = 0 ↔ v = 0xFF := by bv_omega

/-- Settles O31: `fileOp_status` with each instruction's result and flags. -/
theorem statusAsDestination : Obligations.StatusAsDestination := by
  intro f s h v
  refine ⟨⟨_, rfl, fileOp_status_withZ (fun v => s.w &&& v) _ h Iff.rfl⟩,
    ⟨_, rfl, fileOp_status_withZ (fun v => s.w ||| v) _ h Iff.rfl⟩,
    ⟨_, rfl, fileOp_status_withZ (fun v => s.w ^^^ v) _ h Iff.rfl⟩,
    ⟨_, rfl, fileOp_status_withZ (fun v => ~~~v) _ h (not_eq_zero_iff _)⟩,
    ⟨_, rfl, fileOp_status_withZ id _ h Iff.rfl⟩,
    ⟨_, rfl, fileOp_status_withZ (fun v => v + 1) _ h (add_one_eq_zero_iff _)⟩,
    ⟨_, rfl, fileOp_status_withZ (fun v => v - 1) _ h sub_eq_zero⟩,
    ⟨_, rfl, ?_⟩, ⟨_, rfl, ?_⟩, ⟨_, rfl, ?_⟩, ⟨_, rfl, ?_⟩⟩
  · rw [← rotateLeft_value]
    exact fileOp_status (rotateLeft s.c) h
  · rw [← rotateRight_value]
    exact fileOp_status (rotateRight s.c) h
  · rw [← beq_eq_decide]
    exact fileOp_status (fun v => add s.w v) h
  · rw [← decide_eq_decide.2 (sub_eq_zero (a := v) (b := s.w)), ← beq_eq_decide]
    exact fileOp_status (fun v => sub v s.w) h

/-! ## Resets other than power-on -/

/-- A reset other than power-on is `otherReset` with the pin levels remembered (R401; log 39). -/
theorem takeReset_other {c : ResetCause} (h : c ≠ .por) (s : State) :
    takeReset c s =
      remember (pinsA (otherReset c s)) (pinsB (otherReset c s)) (clockT1 (otherReset c s)) (otherReset c s) := by
  rw [takeReset, if_neg h]

/-- PORTA's latch after a reset: bit 3 stays, bits 2:0 are 0 (R90). -/
theorem resetLatch_low (latch old : Byte) : ((latch &&& 0xF0) ||| (old &&& 0x08)) &&& 0x0F = old &&& 0x08 := by
  ext i hi
  have table : ∀ i < 8, ((0xF0 : Byte).getLsbD i && (0x0F : Byte).getLsbD i) = false ∧
      ((0x08 : Byte).getLsbD i && (0x0F : Byte).getLsbD i) = (0x08 : Byte).getLsbD i := by decide
  simp only [← BitVec.getLsbD_eq_getElem, BitVec.getLsbD_and, BitVec.getLsbD_or, Bool.and_or_distrib_right, Bool.and_assoc,
    (table i hi).1, (table i hi).2, Bool.and_false, Bool.false_or]

/-- With GIE = 0 no interrupt is requested (R312). -/
theorem irq_of_gie {s : State} (h : s.gie = false) : irq s = false := by
  rw [irq, h, Bool.false_and]

/-- No bit of RCSTA but RX9D has an open value after a reset (R90). -/
theorem resetRcsta_masked (bits : Byte) : (bits &&& 0x01) &&& 0xFE = 0 := masked_and_zero (by decide) bits

/-- TXSTA after a reset: the shift register is empty (R90). -/
theorem reset_txsta : setBit State.reset.usart.txsta 1 State.reset.usart.tsr.isNone = 0x02 := by decide

/-- An EEPROM that was not being written keeps its array. -/
theorem resetCells_idle {e : Eeprom} (v : Byte) (h : e.write = none) : resetCells v e = e.cells := by
  simp [resetCells, h]

/-- Settles O55: the fields of `otherReset`, and the four in which a bit operation has to be worked out. -/
theorem otherResetLeaves : Obligations.OtherResetLeaves := by
  intro s c hc
  rw [takeReset_other hc s]
  have gie : (s.intcon &&& 0x01).getLsbD 7 = false := (BitVec.getLsbD_and ..).trans (Bool.and_false _)
  exact ⟨rfl, rfl, rfl, rfl, rfl, rfl, rfl, rfl, resetLatch_low _ _, rfl, rfl, rfl, rfl, rfl, rfl, rfl, rfl, rfl, rfl,
    resetRcsta_masked _, rfl, reset_txsta, rfl, rfl, rfl, rfl, rfl, rfl, rfl, rfl, rfl, rfl, rfl, rfl, rfl,
    fun h => resetCells_idle _ h, irq_of_gie gie⟩

end Sys2Proof.Machine
end

section
/-! Proofs of the statements about data memory (20_memory.md): the map, operand addresses, what registers read after a write,
and what no step or no device changes. -/

namespace Sys2Proof.Machine

/-! ## The data memory map -/

/-- INDF, PCL, STATUS, FSR, PCLATH, INTCON are the same cell in all four banks (R104). -/
theorem resolve_all_banks :
    ∀ off ∈ ([0x00, 0x02, 0x03, 0x04, 0x0A, 0x0B] : List Nat), ∀ bank < 4,
      resolve (BitVec.ofNat 9 (128 * bank + off)) = resolve (BitVec.ofNat 9 off) := by
  decide +kernel

/-- Banks 2 and 3 show TMR0, PORTB and OPTION, TRISB of banks 0 and 1 (R104). -/
theorem resolve_bank_pairs :
    ∀ off ∈ ([0x01, 0x06] : List Nat), ∀ bank < 2,
      resolve (BitVec.ofNat 9 (256 + 128 * bank + off)) = resolve (BitVec.ofNat 9 (128 * bank + off)) := by
  decide +kernel

theorem resolve_shared :
    ∀ off < 16, ∀ bank < 4, resolve (BitVec.ofNat 9 (128 * bank + 0x70 + off)) = .gpr (0x70 + off) := by
  decide +kernel

/-- A general purpose byte goes by its own address exactly where R32 places one. -/
theorem resolve_eq_gpr_self_iff : ∀ a < 512, resolve (BitVec.ofNat 9 a) = .gpr a ↔ gprAddr a = true := by
  decide +kernel

theorem resolve_gaps :
    ∀ a < 512, (0x150 ≤ a ∧ a ≤ 0x16F) ∨ (0x1A0 ≤ a ∧ a ≤ 0x1EF) → resolve (BitVec.ofNat 9 a) = .none := by
  decide +kernel

theorem gprAddr_iff (a : Nat) :
    gprAddr a = true ↔ (0x020 ≤ a ∧ a ≤ 0x07F) ∨ (0x0A0 ≤ a ∧ a ≤ 0x0EF) ∨ (0x120 ≤ a ∧ a ≤ 0x14F) := by
  simp only [gprAddr, Bool.or_eq_true, Bool.and_eq_true, decide_eq_true_eq]
  omega

/-- Settles O6: the map at each of the 512 addresses; the count is that of the three ranges of R32. -/
theorem dataMemoryMap : Obligations.DataMemoryMap := by
  refine ⟨resolve_all_banks, resolve_bank_pairs, resolve_shared,
    fun a ha => ⟨fun h => (resolve_eq_gpr_self_iff a ha).2 ((gprAddr_iff a).2 h), resolve_gaps a ha⟩, ?_⟩
  have ranges : ((List.range 512).filter fun a => resolve (BitVec.ofNat 9 a) == .gpr a) =
      (List.range 512).filter gprAddr := by
    refine List.filter_congr fun a ha => Bool.eq_iff_iff.2 ?_
    rw [beq_iff_eq]
    exact resolve_eq_gpr_self_iff a (List.mem_range.1 ha)
  rw [ranges]
  decide +kernel

/-! ## Operand addresses -/

theorem rp_toNat (s : State) :
    s.rp.toNat = (if s.status.getLsbD 6 then 2 else 0) + (if s.status.getLsbD 5 then 1 else 0) := by
  have table : ∀ v : Byte, (v.extractLsb' 5 2).toNat =
      (if v.getLsbD 6 then 2 else 0) + (if v.getLsbD 5 then 1 else 0) := by decide +kernel
  exact table s.status

/-- The number that the bits of `a` above those of `b` make (R101). -/
theorem append_toNat {n k : Nat} (a : BitVec n) (b : BitVec k) : (a ++ b).toNat = a.toNat * 2 ^ k + b.toNat := by
  rw [BitVec.toNat_append, ← Nat.shiftLeft_add_eq_or_of_lt b.isLt, Nat.shiftLeft_eq]

theorem ea_indirect (s : State) :
    (ea 0 s).toNat = (if s.status.getLsbD 7 then 256 else 0) + s.fsr.toNat := by
  rw [ea, if_pos rfl, append_toNat, BitVec.toNat_ofBool, State.irp]
  cases s.status.getLsbD 7 <;> rfl

theorem ea_direct {f : BitVec 7} (h : f ≠ 0) (s : State) :
    (ea f s).toNat =
      (if s.status.getLsbD 6 then 256 else 0) + (if s.status.getLsbD 5 then 128 else 0) + f.toNat := by
  rw [ea, if_neg h, append_toNat, rp_toNat]
  split <;> split <;> omega

/-- INDF named through itself: FSR<6:0> = 0 points at INDF's own address, in any bank (R109). -/
theorem operandReg_indf {s : State} (h : s.fsr.toNat % 128 = 0) : operandReg 0 s = .indf := by
  have table : ∀ (b : Bool) (v : Byte), v.toNat % 128 = 0 → resolve (BitVec.ofBool b ++ v) = .indf := by decide +kernel
  exact table s.irp s.fsr h

/-- INCF INDF, 1 through itself: INDF reads 00h, so the result is 01h, which goes nowhere; Z is 0 (R109). -/
theorem incf_indf {s : State} (h : operandReg 0 s = .indf) :
    exec (.incf 0 .toF) s =
      .next { s with
        status := statusOf s.status false (s.status.getLsbD 1) (s.status.getLsbD 0)
        pc := s.pc + 1
        cycles := 1
        rmw := .none } := by
  have notStatus : plainDest .toF (operandReg 0 s) := fun _ => by rw [h]; decide
  rw [exec, execIncf, fileOp_withZ 0 .toF (fun v => v + 1) s notStatus, h]
  rfl

/-- Settles O5: `ea_direct` and `ea_indirect`, and what INDF through itself resolves to. -/
theorem operandAddressingModes : Obligations.OperandAddressingModes := by
  refine ⟨fun f s => ?_, fun _ _ => rfl, fun s h => ?_⟩
  · split
    case isTrue hf => rw [hf, ea_indirect]
    case isFalse hf => exact ea_direct hf s
  · have indf := operandReg_indf h
    refine ⟨?_, fun v => ?_, incf_indf indf⟩
    · rw [operandValue, indf]
      rfl
    · rw [fileWrite, indf]
      rfl

/-! ## What a register reads after a write -/

/-- PIR1 as read after a write: the writable flags, TXIF and RCIF as they were, bit 3 unimplemented (R54, R92). -/
theorem peek_write_pir1 {s : State} (h : s.Inv) (v : Byte) :
    peek .pir1 (memWrite .pir1 v s) = (v &&& 0xC7) ||| (peek .pir1 s &&& 0x30) := by
  have bit3 : s.pir1.getLsbD 3 = false := by simpa using congrArg (·.getLsbD 3) h.pir1
  have masks : ∀ i < 8, (0xC7 : Byte).getLsbD i = !decide (3 ≤ i ∧ i ≤ 5) ∧
      (0x30 : Byte).getLsbD i = decide (i = 4 ∨ i = 5) := by decide
  refine BitVec.eq_of_getLsbD_eq fun i hi => ?_
  obtain ⟨written, kept⟩ := masks i hi
  show (setBit (merge 0xC7 s.pir1 v) 5 s.rcif).getLsbD i =
    ((v &&& 0xC7) ||| (setBit s.pir1 5 s.rcif &&& 0x30)).getLsbD i
  simp only [BitVec.getLsbD_or, BitVec.getLsbD_and, setBit_getLsbD (show 5 < 8 by decide), merge_getLsbD _ _ _ hi, written,
    kept]
  by_cases h35 : 3 ≤ i ∧ i ≤ 5
  · obtain rfl | rfl | rfl : i = 3 ∨ i = 4 ∨ i = 5 := by omega
    · simpa using bit3
    · simp
    · simp
  · have h4 : i ≠ 4 := by omega
    have h5 : i ≠ 5 := by omega
    simp [h35, h4, h5]

/-- TXSTA as read after a write: TRMT stays the transmitter's, bit 3 is unimplemented (R63, R92). -/
theorem peek_write_txsta (v : Byte) (s : State) :
    peek .txsta (memWrite .txsta v s) = (v &&& 0xF5) ||| (peek .txsta s &&& 0x02) := by
  have masks : ∀ i < 8, (0xF5 : Byte).getLsbD i = !decide (i = 1 ∨ i = 3) ∧
      (0x02 : Byte).getLsbD i = decide (i = 1) := by decide
  refine BitVec.eq_of_getLsbD_eq fun i hi => ?_
  obtain ⟨written, kept⟩ := masks i hi
  show (setBit (v &&& 0xF5) 1 s.usart.tsr.isNone).getLsbD i =
    ((v &&& 0xF5) ||| (setBit s.usart.txsta 1 s.usart.tsr.isNone &&& 0x02)).getLsbD i
  simp only [BitVec.getLsbD_or, BitVec.getLsbD_and, setBit_getLsbD (show 1 < 8 by decide), written, kept]
  by_cases h1 : i = 1 <;> simp [h1]

/-- RCSTA as read after a write: FERR and RX9D stay, and OERR unless CREN is written 0 (R62; log 48). -/
theorem peek_write_rcsta (v : Byte) (s : State) :
    peek .rcsta (memWrite .rcsta v s) =
      (v &&& 0xF8) ||| (peek .rcsta s &&& (if v.getLsbD 4 then 0x07 else 0x05)) := by
  show (if v.getLsbD 4 then merge 0xF8 s.usart.rcsta v else setBit (merge 0xF8 s.usart.rcsta v) 1 false) =
    (v &&& 0xF8) ||| (s.usart.rcsta &&& (if v.getLsbD 4 then 0x07 else 0x05))
  cases v.getLsbD 4 with
  | true => exact BitVec.or_comm _ _
  | false =>
    show (s.usart.rcsta &&& 0x07 ||| v &&& 0xF8) &&& 0xFD = (v &&& 0xF8) ||| (s.usart.rcsta &&& 0x05)
    rw [BitVec.and_or_distrib_right, BitVec.and_assoc, BitVec.and_assoc]
    exact BitVec.or_comm _ _

/-- In PWM mode CCPR1H is read-only (R61). -/
theorem peek_write_ccpr1h (v : Byte) (s : State) :
    peek .ccpr1h (memWrite .ccpr1h v s) = (if s.ccp.con &&& 0x0C = 0x0C then peek .ccpr1h s else v) := by
  have table : ∀ c : Byte, (c.getLsbD 3 && c.getLsbD 2) = true ↔ c &&& 0x0C = 0x0C := by decide +kernel
  simp only [memWrite]
  split
  case isTrue hp => rw [if_pos ((table _).1 hp)]
  case isFalse hp => rw [if_neg (mt (table _).2 hp)]; rfl

/-- EECON1 as read after a write: WRERR and WREN are stored (R64). -/
theorem peek_write_eecon1 (v : Byte) (s : State) :
    peek .eecon1 (memWrite .eecon1 v s) &&& 0x0C = v &&& 0x0C := by
  have keeps (c : Byte) (b : Bool) : setBit (c &&& 0x0C) 1 b &&& 0x0C = c &&& 0x0C := by
    refine BitVec.eq_of_getLsbD_eq fun i _ => ?_
    simp only [BitVec.getLsbD_and, setBit_getLsbD (show 1 < 8 by decide)]
    by_cases h1 : i = 1 <;> simp [h1]
  show readEecon1 (writeEecon1 v s).ee &&& 0x0C = v &&& 0x0C
  rw [writeEecon1_eq]
  exact keeps v _

theorem pclath_read_write (v : Byte) : (v.extractLsb' 0 5).setWidth 8 = v &&& 0x1F := by
  revert v
  decide +kernel

/-- The registers with all eight bits readable and writable. -/
def wholeRegisters : List Reg :=
  [.tmr0, .fsr, .intcon, .tmr1l, .tmr1h, .tmr2, .ccpr1l, .txreg, .option, .trisb, .pr2, .spbrg, .eedata, .eeadr]

theorem peek_write_whole (v : Byte) (s : State) : ∀ r ∈ wholeRegisters, peek r (memWrite r v s) = v := by
  have option : peek .option (memWrite .option v s) = v := congrArg State.option (writeOption_eq v s)
  simp only [wholeRegisters, List.forall_mem_cons]
  exact ⟨rfl, rfl, rfl, rfl, rfl, rfl, rfl, rfl, option, rfl, rfl, rfl, rfl, rfl, fun _ k => nomatch k⟩

/-- A write of RCREG shows while the receive buffer is empty (log 34). -/
theorem peek_write_rcreg_empty {s : State} (h : s.usart.fifo = []) (v : Byte) :
    peek .rcreg (memWrite .rcreg v s) = v := by
  simp [peek, memWrite, h]

theorem peek_write_rcreg_full {s : State} (h : s.usart.fifo ≠ []) (v : Byte) :
    peek .rcreg (memWrite .rcreg v s) = peek .rcreg s := by
  obtain ⟨b, rest, e⟩ := List.exists_cons_of_ne_nil h
  simp [peek, memWrite, e]

/-- Settles O9: most registers store what is written under a mask; PIR1, TXSTA, RCSTA, CCPR1H, EECON1 and RCREG have the
lemmas above. -/
theorem registerWriteReadsBack : Obligations.RegisterWriteReadsBack := by
  intro s v h
  exact ⟨peek_write_whole v s, BitVec.or_comm _ _, pclath_read_write v, peek_write_pir1 h v, rfl, rfl,
    peek_write_ccpr1h v s, rfl, peek_write_rcsta v s, BitVec.or_comm _ _, rfl, rfl, rfl, peek_write_txsta v s,
    peek_write_eecon1 v s, rfl, rfl, fun e => peek_write_rcreg_empty e v, fun e => peek_write_rcreg_full e v, rfl, rfl,
    rfl, writePortb_latB v s⟩

/-! ## A read-modify-write of PORTB -/

/-- PORTB as the destination: the latch takes the result computed from the pin levels (R119, R421). -/
theorem fileOp_portb_latB {f : BitVec 7} {s : State} (fn : Byte → Alu) (h : operandReg f s = .portb) :
    (fileOp f .toF fn s).io.latB = (fn (pinsB s)).value := by
  have e : fileOp f .toF fn s = advance (putFlags (fn (pinsB s)).flags false
      (writeBack .portb (fn (pinsB s)).value (readEffect .portb s))) := by
    rw [fileOp, fileEffect, h]
    rfl
  rw [e, advance_io, putFlags_io]
  exact writePortb_latB _ _

theorem pinsB_of_input {s : State} {i : Nat} (hi : i < 8) (h : s.io.trisB.getLsbD i = true) :
    (pinsB s).getLsbD i = s.io.extB.getLsbD i :=
  (pinLevelsFollowDirection s i hi).trans (if_pos (.inl h))

/-- Settles O12: each of the three instructions is a `fileOp` on the pin levels. -/
theorem portReadModifyWriteUsesPins : Obligations.PortReadModifyWriteUsesPins := by
  intro s f b h
  have movf := fileOp_portb_latB withZ h
  refine ⟨⟨_, rfl, movf⟩, ⟨_, rfl, fileOp_portb_latB _ h⟩, ⟨_, rfl, fileOp_portb_latB _ h⟩,
    fun i hi hin hlow => ⟨_, rfl, ?_⟩⟩
  exact (congrArg (·.getLsbD i) movf).trans ((pinsB_of_input hi hin).trans hlow)

/-! ## Program memory -/

@[simp] theorem finish_prog (p : Bool) (s : State) : (finish p s).prog = s.prog := by cases p <;> rfl

@[simp] theorem finishSkip_prog (p t : Bool) (s : State) : (finishSkip p t s).prog = s.prog := by
  cases p <;> cases t <;> rfl

@[simp] theorem fileEffect_prog (f : BitVec 7) (d : Dest) (fn : Byte → Alu) (s : State) :
    (fileEffect f d fn s).prog = s.prog := by
  cases d <;> simp [fileEffect, putResult]

theorem goToSleep_prog (s : State) : (goToSleep s).prog = s.prog := by
  unfold goToSleep
  split <;> rfl

/-- No instruction writes program memory (R100). -/
theorem Shape.run_prog (p : Shape) (s : State) : (p.run s).prog = s.prog := by
  cases p with
  | file | skip | test | clear | store | literal =>
    simp [Shape.run, fileOp, fileSkip, bitSkip, clearFile, fileWrite, literalOp]
  | option => exact memWrite_prog .option s.w s
  | sleep => exact goToSleep_prog s
  | nop | call | goto | ret | retlw | retfie | clrwdt => rfl

theorem takeInterrupt_prog (s : State) : (takeInterrupt s).prog = s.prog := (finishStep_devices _).prog

theorem sleepStep_prog (s : State) : (sleepStep s).prog = s.prog := by
  unfold sleepStep
  split <;> rfl

theorem cpuStep_prog {hold : Bool} {s t : State} (ht : cpuStep hold s = .next t) : t.prog = s.prog := by
  obtain ⟨-, e⟩ | ⟨-, -, e⟩ | ⟨-, -, r, -, e⟩ | ⟨-, -, i, -, e⟩ := cpuStep_cases hold s
  · cases e.symm.trans ht
    exact sleepStep_prog s
  · cases e.symm.trans ht
    exact takeInterrupt_prog s
  · cases e.symm.trans ht
  · rw [runInstr_eq] at e
    cases e.symm.trans ht
    exact (finishStep_devices _).prog.trans (Shape.run_prog _ (beginInstr i s))

theorem takeReset_prog (c : ResetCause) (s : State) : (takeReset c s).prog = s.prog := by
  unfold takeReset
  simp only
  split <;> rfl

theorem wdtTimeout_prog (s : State) : (wdtTimeout s).prog = s.prog := by
  unfold wdtTimeout
  split
  · rfl
  · exact takeReset_prog .wdt s

theorem eeComplete_prog (s : State) : (eeComplete s).prog = s.prog := by
  unfold eeComplete
  split
  · rfl
  · split
    · exact raisePir1_prog _ _
    · rfl

/-- No event reaches program memory: a reset keeps it too (log 40). -/
theorem applyEvent_prog (e : EnvEvent) (s : State) : (applyEvent e s).prog = s.prog := by
  cases e with
  | pins | crystal | comparators => exact (sample_devices _).prog
  | powerOn => exact takeReset_prog .por s
  | eeDone => exact eeComplete_prog s
  | falseCmif | frame | frameSent | wdtClock =>
    simp only [applyEvent]
    split <;> rfl
  | wdtTimeout | mclr | brownOut =>
    simp only [applyEvent]
    split <;> simp only [wdtTimeout_prog, takeReset_prog]

theorem eventStep_prog (race : Bool) (e : EnvEvent) (s : State) : (eventStep race e s).prog = s.prog := by
  cases race <;> exact applyEvent_prog e _

/-- Settles O38: neither a move of the CPU nor an event writes program memory. -/
theorem programMemoryNeverChanges : Obligations.ProgramMemoryNeverChanges := by
  intro s t ht
  obtain ⟨rest, ⟨hold, e⟩ | ⟨race, ev, e⟩⟩ := step_cases s
  · exact cpuStep_prog (s := { s with env := rest }) (e.symm.trans ht)
  · cases e.symm.trans ht
    exact eventStep_prog race ev { s with env := rest }

/-! ## What the devices change -/

/-- Everything that the clock edges of the timers and of CCP1 leave of what the sample then looks at: the pins remembered and
their directions, INTF, RBIF and CMIF (R310, R314, R315). -/
structure ClocksOnly (s t : State) : Prop where
  io : t.io = s.io
  t1con : t.t1.con = s.t1.con
  intf : t.intcon.getLsbD 1 = s.intcon.getLsbD 1
  rbif : t.intcon.getLsbD 0 = s.intcon.getLsbD 0
  cmif : t.pir1.getLsbD 6 = s.pir1.getLsbD 6

theorem ClocksOnly.refl (s : State) : ClocksOnly s s := by constructor <;> rfl

theorem ClocksOnly.trans {s t u : State} (h : ClocksOnly s t) (k : ClocksOnly t u) : ClocksOnly s u where
  io := k.io.trans h.io
  t1con := k.t1con.trans h.t1con
  intf := k.intf.trans h.intf
  rbif := k.rbif.trans h.rbif
  cmif := k.cmif.trans h.cmif

/-- A raised flag of INTCON leaves the bits that the mask does not name, in the race of R120 too. -/
theorem raiseIntcon_getLsbD {m : Byte} {j : Nat} (h : m.getLsbD j = false) (s : State) :
    (raiseIntcon m s).intcon.getLsbD j = s.intcon.getLsbD j := by
  unfold raiseIntcon
  split <;> simp only [BitVec.getLsbD_or, BitVec.getLsbD_and, h, Bool.false_and, Bool.or_false]

theorem raisePir1_getLsbD {m : Byte} {j : Nat} (h : m.getLsbD j = false) (s : State) :
    (raisePir1 m s).pir1.getLsbD j = s.pir1.getLsbD j := by
  unfold raisePir1
  split <;> simp only [BitVec.getLsbD_or, BitVec.getLsbD_and, h, Bool.false_and, Bool.or_false]

theorem raisePir1_clocks {m : Byte} (h : m.getLsbD 6 = false) (s : State) : ClocksOnly s (raisePir1 m s) where
  io := raisePir1_io m s
  t1con := by rw [raisePir1_t1]
  intf := by rw [raisePir1_intcon]
  rbif := by rw [raisePir1_intcon]
  cmif := raisePir1_getLsbD h s

theorem tmr0Tick_clocks (s : State) : ClocksOnly s (tmr0Tick s) where
  io := tmr0Tick_io s
  t1con := by rw [tmr0Tick_t1]
  intf := by
    unfold tmr0Tick
    split
    · exact raiseIntcon_getLsbD rfl _
    · rfl
  rbif := by
    unfold tmr0Tick
    split
    · exact raiseIntcon_getLsbD rfl _
    · rfl
  cmif := by rw [tmr0Tick_pir1]

theorem t0Clock_clocks (s : State) : ClocksOnly s (t0Clock s) := by
  have h (a : Timer0) : ClocksOnly s { s with t0 := a } := by constructor <;> rfl
  unfold t0Clock
  simp only
  split
  · exact tmr0Tick_clocks s
  · split
    · exact (h _).trans (tmr0Tick_clocks _)
    · exact h _

theorem setTmr1_clocks (v : BitVec 16) (s : State) : ClocksOnly s (setTmr1 v s) := by constructor <;> rfl

theorem spend_clocks (s : State) : ClocksOnly s s.spend := by constructor <;> rfl

theorem ccp_clocks (s : State) (d : Ccp) : ClocksOnly s { s with ccp := d } := by constructor <;> rfl

theorem compareMatch_clocks (s : State) : ClocksOnly s (compareMatch s) := by
  have raised : ClocksOnly s (raisePir1 ccp1if s) := raisePir1_clocks rfl s
  unfold compareMatch
  simp only
  split
  · exact raised.trans (ccp_clocks _ _)
  · split
    · exact raised.trans (ccp_clocks _ _)
    · exact raised

theorem t1Advance_clocks (s : State) : ClocksOnly s (t1Advance s) := by
  unfold t1Advance
  simp only
  split
  · exact (setTmr1_clocks _ s).trans (raisePir1_clocks rfl _)
  · exact setTmr1_clocks _ s

theorem t1Compare_clocks (s : State) : ClocksOnly s (t1Compare s) := by
  unfold t1Compare
  repeat' split
  · exact (spend_clocks s).trans (compareMatch_clocks _)
  · exact spend_clocks s
  · exact compareMatch_clocks s
  · exact .refl s

theorem t1Count_clocks (s : State) : ClocksOnly s (t1Count s) := (t1Advance_clocks s).trans (t1Compare_clocks _)

theorem specialEvent_clocks (s : State) : ClocksOnly s (specialEvent s) :=
  (raisePir1_clocks rfl s).trans (setTmr1_clocks _ _)

theorem t1Inc_clocks (s : State) : ClocksOnly s (t1Inc s) := by
  unfold t1Inc
  repeat' split
  · exact (spend_clocks s).trans (specialEvent_clocks _)
  · exact (spend_clocks s).trans (t1Count_clocks _)
  · exact specialEvent_clocks s
  · exact t1Count_clocks s

theorem t1Clock_clocks (s : State) : ClocksOnly s (t1Clock s) := by
  have h (n : Nat) : ClocksOnly s { s with t1 := { s.t1 with pre := n } } := by constructor <;> rfl
  unfold t1Clock
  split
  · exact (h 0).trans (t1Inc_clocks _)
  · exact h _

theorem capture_clocks (s : State) : ClocksOnly s (capture s) := (ccp_clocks s _).trans (raisePir1_clocks rfl _)

theorem captureEvery_clocks (n : Nat) (s : State) : ClocksOnly s (captureEvery n s) := by
  unfold captureEvery
  split
  · exact (ccp_clocks s _).trans (capture_clocks _)
  · exact ccp_clocks s _

theorem t0Edge_clocks (a : Byte) (s : State) : ClocksOnly s (t0Edge a s) := by
  unfold t0Edge
  simp only
  generalize (if s.t0se then falls s.io.seenA a 4 else rises s.io.seenA a 4) = edge
  split
  · exact t0Clock_clocks s
  · exact .refl s

theorem t1Edge_clocks (c : Bool) (s : State) : ClocksOnly s (t1Edge c s) := by
  unfold t1Edge
  repeat' split
  · constructor <;> rfl
  · exact t1Clock_clocks s
  · exact .refl s
  · exact .refl s

theorem captureEdge_clocks (b : Byte) (s : State) : ClocksOnly s (captureEdge b s) := by
  unfold captureEdge
  split <;> first | exact .refl s | split
  all_goals first | exact .refl s | exact capture_clocks s | exact captureEvery_clocks _ s

/-- The state in which the sample looks for INTF, RBIF and CMIF: the clock edges have been counted. -/
def edgesCounted (s : State) : State := captureEdge (pinsB s) (t1Edge (clockT1 s) (t0Edge (pinsA s) s))

theorem edgesCounted_clocks (s : State) : ClocksOnly s (edgesCounted s) :=
  ((t0Edge_clocks _ s).trans (t1Edge_clocks _ _)).trans (captureEdge_clocks _ _)

theorem edgesCounted_devices (s : State) : DevicesOnly s (edgesCounted s) :=
  ((t0Edge_devices _ s).trans (t1Edge_devices _ _)).trans (captureEdge_devices _ _)

theorem sample_eq (s : State) :
    sample s =
      remember (pinsA s) (pinsB s) (clockT1 s)
        (comparatorChange (portChange (pinsB s) (intEdge (pinsB s) (edgesCounted s)))) := rfl

/-! ### INTF, RBIF and CMIF outside the race -/

/-- Outside the race a raised flag is set. -/
theorem raiseIntcon_sets {s : State} (h : s.rmw ≠ .intcon) {m : Byte} {j : Nat} (hm : m.getLsbD j = true) :
    (raiseIntcon m s).intcon.getLsbD j = true := by
  rw [raiseIntcon, if_neg fun k => h k.1, BitVec.getLsbD_or, hm, Bool.or_true]

theorem raisePir1_sets {s : State} (h : s.rmw ≠ .pir1) {m : Byte} {j : Nat} (hm : m.getLsbD j = true) :
    (raisePir1 m s).pir1.getLsbD j = true := by
  rw [raisePir1, if_neg fun k => h k.1, BitVec.getLsbD_or, hm, Bool.or_true]

/-- The edge of RB0 that INTEDG selects (R314). -/
abbrev rb0Edge (new : Byte) (s : State) : Prop :=
  new.getLsbD 0 = s.option.getLsbD 6 ∧ s.io.seenB.getLsbD 0 = !s.option.getLsbD 6

theorem intEdge_eq (new : Byte) (s : State) : intEdge new s = if rb0Edge new s then raiseIntcon intf s else s := by
  refine if_congr ?_ rfl rfl
  unfold State.intedg rises falls rb0Edge
  cases s.option.getLsbD 6 <;> cases s.io.seenB.getLsbD 0 <;> cases new.getLsbD 0 <;> decide

@[simp] theorem intEdge_pir1 (new : Byte) (s : State) : (intEdge new s).pir1 = s.pir1 := by
  rw [intEdge_eq]
  split <;> simp

@[simp] theorem intEdge_io (new : Byte) (s : State) : (intEdge new s).io = s.io := by
  rw [intEdge_eq]
  split <;> simp

@[simp] theorem intEdge_t1 (new : Byte) (s : State) : (intEdge new s).t1 = s.t1 := by
  rw [intEdge_eq]
  split <;> simp

theorem intEdge_rbif (new : Byte) (s : State) : (intEdge new s).intcon.getLsbD 0 = s.intcon.getLsbD 0 := by
  rw [intEdge_eq]
  split
  · exact raiseIntcon_getLsbD rfl s
  · rfl

theorem intEdge_intf {s : State} (h : s.rmw ≠ .intcon) (new : Byte) :
    (intEdge new s).intcon.getLsbD 1 = true ↔ s.intcon.getLsbD 1 = true ∨ rb0Edge new s := by
  rw [intEdge_eq]
  split
  case isTrue e => exact iff_of_true (raiseIntcon_sets h rfl) (.inr e)
  case isFalse e => exact (or_iff_left e).symm

/-- An input among RB7:RB4 differs from its value at the last read of PORTB (R315). -/
def inputChanged (new : Byte) (s : State) : Prop :=
  ∃ j < 8, 4 ≤ j ∧ (s.io.trisB.getLsbD j = true ∨ (s.t1.con.getLsbD 3 = true ∧ 6 ≤ j)) ∧
    new.getLsbD j ≠ s.io.change.getLsbD j

theorem byte_ne_zero_iff (v : Byte) : v ≠ 0 ↔ ∃ j < 8, v.getLsbD j = true := by
  constructor
  · intro h
    by_contra k
    simp only [not_exists, not_and, Bool.not_eq_true] at k
    exact h (BitVec.eq_of_getLsbD_eq fun i hi => (k i hi).trans BitVec.getLsbD_zero.symm)
  · rintro ⟨j, -, hj⟩ rfl
    simp at hj

theorem inputChanged_iff (new : Byte) (s : State) :
    (new ^^^ s.io.change) &&& inputsB s &&& 0xF0 ≠ 0 ↔ inputChanged new s := by
  have mask : ∀ j < 8, (0xF0 : Byte).getLsbD j = decide (4 ≤ j) := by decide
  rw [byte_ne_zero_iff]
  refine exists_congr fun j => and_congr_right fun hj => ?_
  simp only [BitVec.getLsbD_and, BitVec.getLsbD_xor, inputsB_getLsbD s hj, mask j hj, Bool.and_eq_true, Bool.or_eq_true,
    decide_eq_true_eq, bne_iff_ne]
  tauto

theorem portChange_rbif {s : State} (h : s.rmw ≠ .intcon) (new : Byte) :
    (portChange new s).intcon.getLsbD 0 = true ↔ s.intcon.getLsbD 0 = true ∨ inputChanged new s := by
  unfold portChange
  rw [← inputChanged_iff]
  split
  case isTrue e => exact iff_of_true (raiseIntcon_sets h rfl) (.inr e)
  case isFalse e => exact (or_iff_left e).symm

theorem portChange_intf (new : Byte) (s : State) : (portChange new s).intcon.getLsbD 1 = s.intcon.getLsbD 1 := by
  unfold portChange
  split
  · exact raiseIntcon_getLsbD rfl s
  · rfl

theorem comparatorChange_intcon (s : State) : (comparatorChange s).intcon = s.intcon := by
  unfold comparatorChange
  split
  · exact raisePir1_intcon _ s
  · rfl

theorem comparatorChange_cmif {s : State} (h : s.rmw ≠ .pir1) :
    (comparatorChange s).pir1.getLsbD 6 = true ↔
      s.pir1.getLsbD 6 = true ∨ s.cmp.con.extractLsb' 6 2 ≠ s.cmp.last := by
  unfold comparatorChange
  split
  case isTrue e => exact iff_of_true (raisePir1_sets h rfl) (.inr e)
  case isFalse e => exact (or_iff_left e).symm

theorem portChange_pir1 (new : Byte) (s : State) : (portChange new s).pir1 = s.pir1 := by
  unfold portChange
  split
  · exact raiseIntcon_pir1 _ s
  · rfl

/-- The sample sets INTF at the edge of RB0 that INTEDG selects (R314). -/
theorem sample_intf {s : State} (h : s.rmw ≠ .intcon) :
    (sample s).intcon.getLsbD 1 = true ↔ s.intcon.getLsbD 1 = true ∨ rb0Edge (pinsB s) s := by
  have k := edgesCounted_clocks s
  have d := edgesCounted_devices s
  have edge : rb0Edge (pinsB s) (edgesCounted s) ↔ rb0Edge (pinsB s) s := by
    unfold rb0Edge
    rw [k.io, d.option]
  rw [sample_eq]
  show (comparatorChange _).intcon.getLsbD 1 = true ↔ _
  rw [comparatorChange_intcon, portChange_intf, intEdge_intf (d.rmw.trans_ne h), k.intf, edge]

/-- The sample sets RBIF while an input among RB7:RB4 differs from its value at the last read of PORTB (R315). -/
theorem sample_rbif {s : State} (h : s.rmw ≠ .intcon) :
    (sample s).intcon.getLsbD 0 = true ↔ s.intcon.getLsbD 0 = true ∨ inputChanged (pinsB s) s := by
  have k := edgesCounted_clocks s
  have d := (edgesCounted_devices s).trans (intEdge_devices (pinsB s) _)
  have changed : inputChanged (pinsB s) (intEdge (pinsB s) (edgesCounted s)) ↔ inputChanged (pinsB s) s := by
    unfold inputChanged
    rw [intEdge_io, intEdge_t1, k.io, k.t1con]
  rw [sample_eq]
  show (comparatorChange _).intcon.getLsbD 0 = true ↔ _
  rw [comparatorChange_intcon, portChange_rbif (d.rmw.trans_ne h), intEdge_rbif, k.rbif, changed]

/-- The sample sets CMIF while a comparator output differs from its value at the last read of CMCON (R310). -/
theorem sample_cmif {s : State} (h : s.rmw ≠ .pir1) :
    (sample s).pir1.getLsbD 6 = true ↔ s.pir1.getLsbD 6 = true ∨ s.cmp.con.extractLsb' 6 2 ≠ s.cmp.last := by
  have k := edgesCounted_clocks s
  have d := ((edgesCounted_devices s).trans (intEdge_devices (pinsB s) _)).trans (portChange_devices (pinsB s) _)
  rw [sample_eq]
  show (comparatorChange _).pir1.getLsbD 6 = true ↔ _
  rw [comparatorChange_cmif (d.rmw.trans_ne h), portChange_pir1, intEdge_pir1, k.cmif, d.cmp]

/-- The devices leave the enables of INTCON. -/
theorem DevicesOnly.intcon_high {s t : State} (h : DevicesOnly s t) {j : Nat} (hj : j < 8) (h3 : 3 ≤ j) :
    t.intcon.getLsbD j = s.intcon.getLsbD j := by
  obtain ⟨f, hf, e⟩ := h.intcon
  have mask : ∀ i < 8, 3 ≤ i → (0xF8 : Byte).getLsbD i = true := by decide
  have bit : f.getLsbD j = false := by
    have k : (f &&& 0xF8).getLsbD j = false := hf ▸ BitVec.getLsbD_zero
    rwa [BitVec.getLsbD_and, mask j hj h3, Bool.and_true] at k
  rw [e, BitVec.getLsbD_or, bit, Bool.or_false]

theorem DevicesOnly.intcon_set {s t : State} (h : DevicesOnly s t) {j : Nat} (hj : s.intcon.getLsbD j = true) :
    t.intcon.getLsbD j = true := by
  obtain ⟨f, -, e⟩ := h.intcon
  rw [e, BitVec.getLsbD_or, hj, Bool.true_or]

/-- Settles O44: `finishStep_devices` for the frame, and the three flags of the sample. -/
theorem devicesLeaveTheCpuAlone : Obligations.DevicesLeaveTheCpuAlone := by
  intro s
  have d := finishStep_devices s
  exact ⟨d.w, d.pc, d.stk, d.sp, d.status, d.fsr, d.pclath, d.ram, d.prog, d.sleeping, d.pie1, d.option, d.pcon, d.wdt,
    d.env, d.cells, fun _ hj h3 => d.intcon_high hj h3, fun _ _ hj => d.intcon_set hj,
    fun h => ⟨sample_intf h, sample_rbif h⟩, sample_cmif, rfl⟩

end Sys2Proof.Machine
end

section
/-! Proofs of the statements about the encoding (30_encoding.md): what each group of `decode` reads, the fields of the words the
encoder writes, the rows of the opcode map, and the words of no row. -/

namespace Sys2Proof.Machine

/-! ## The groups of the opcode map

Bits 13:12 choose the part of the decoder that reads the rest of the word (R150). -/

theorem decode_group00 {w : InsnWord} (h : w.extractLsb' 12 2 = 0b00#2) :
    decode w = decodeByte (w.extractLsb' 8 4) (w.getLsbD 7) (w.extractLsb' 0 7) := by
  rw [decode, h]
  rfl

theorem decode_group01 {w : InsnWord} (h : w.extractLsb' 12 2 = 0b01#2) :
    decode w = some (decodeBit (w.extractLsb' 10 2) (w.extractLsb' 7 3) (w.extractLsb' 0 7)) := by
  rw [decode, h]
  rfl

theorem decode_group10 {w : InsnWord} (h : w.extractLsb' 12 2 = 0b10#2) :
    decode w = some (if w.getLsbD 11 then .goto (w.extractLsb' 0 11) else .call (w.extractLsb' 0 11)) := by
  rw [decode, h]
  rfl

theorem decode_group11 {w : InsnWord} (h : w.extractLsb' 12 2 = 0b11#2) :
    decode w = decodeLit (w.extractLsb' 8 4) (w.extractLsb' 0 8) := by
  rw [decode, h]
  rfl

/-! ## The fields of an encoded word -/

section
variable {p q r : Nat} (g : BitVec p) (o : BitVec q) (k : BitVec r)

/-- The first of three fields written one after the other. -/
theorem extractLsb'_first : (g ++ o ++ k).extractLsb' (q + r) p = g := by
  rw [BitVec.extractLsb'_append_eq_of_le (Nat.le_add_left r q), Nat.add_sub_cancel, BitVec.extractLsb'_append_eq_left]

/-- The second of three fields written one after the other. -/
theorem extractLsb'_second : (g ++ o ++ k).extractLsb' r q = o := by
  rw [BitVec.extractLsb'_append_eq_of_le le_rfl, Nat.sub_self, BitVec.extractLsb'_append_eq_right]

end

/-- A word of group 00 with bit 7 written as a field of its own, as the formats BYTE and BYTE-F do (R141, R142). -/
theorem decode_byteWord (op : BitVec 4) (hi : BitVec 1) (f : BitVec 7) :
    decode (0b00#2 ++ op ++ hi ++ f) = decodeByte op (hi.getLsbD 0) f := by
  have hgroup : (0b00#2 ++ op ++ hi ++ f).extractLsb' 12 2 = 0b00#2 :=
    (BitVec.extractLsb'_append_eq_of_le (by decide)).trans (extractLsb'_first 0b00#2 op hi)
  have hop : (0b00#2 ++ op ++ hi ++ f).extractLsb' 8 4 = op :=
    (BitVec.extractLsb'_append_eq_of_le (by decide)).trans (extractLsb'_second 0b00#2 op hi)
  have hbit : (0b00#2 ++ op ++ hi ++ f).getLsbD 7 = hi.getLsbD 0 := BitVec.getLsbD_append.trans BitVec.getLsbD_append
  have hf : (0b00#2 ++ op ++ hi ++ f).extractLsb' 0 7 = f := BitVec.extractLsb'_append_eq_right
  rw [decode_group00 hgroup, hop, hbit, hf]

theorem decode_encodeFD (op : BitVec 4) (f : BitVec 7) (d : Dest) :
    decode (encodeFD op f d) = decodeByte op (d.bit.getLsbD 0) f := decode_byteWord op d.bit f

theorem decode_encodeF (op : BitVec 4) (f : BitVec 7) : decode (encodeF op f) = decodeByte op true f :=
  decode_byteWord op 1#1 f

theorem decode_encodeFB (op : BitVec 2) (f : BitVec 7) (b : BitVec 3) :
    decode (encodeFB op f b) = some (decodeBit op b f) := by
  have hgroup : (encodeFB op f b).extractLsb' 12 2 = 0b01#2 :=
    (BitVec.extractLsb'_append_eq_of_le (by decide)).trans (extractLsb'_first 0b01#2 op b)
  have hop : (encodeFB op f b).extractLsb' 10 2 = op :=
    (BitVec.extractLsb'_append_eq_of_le (by decide)).trans (extractLsb'_second 0b01#2 op b)
  have hb : (encodeFB op f b).extractLsb' 7 3 = b := extractLsb'_second (0b01#2 ++ op) b f
  have hf : (encodeFB op f b).extractLsb' 0 7 = f := BitVec.extractLsb'_append_eq_right
  rw [decode_group01 hgroup, hop, hb, hf]

theorem decode_encodeK (op : BitVec 4) (k : Byte) : decode (encodeK op k) = decodeLit op k := by
  have hgroup : (encodeK op k).extractLsb' 12 2 = 0b11#2 := extractLsb'_first 0b11#2 op k
  have hop : (encodeK op k).extractLsb' 8 4 = op := extractLsb'_second 0b11#2 op k
  have hk : (encodeK op k).extractLsb' 0 8 = k := BitVec.extractLsb'_append_eq_right
  rw [decode_group11 hgroup, hop, hk]

/-- Format JUMP: bit 11 tells GOTO from CALL (R145). -/
theorem decode_jumpWord (o : BitVec 1) (k : BitVec 11) :
    decode (0b10#2 ++ o ++ k) = some (if o.getLsbD 0 then .goto k else .call k) := by
  have hgroup : (0b10#2 ++ o ++ k).extractLsb' 12 2 = 0b10#2 := extractLsb'_first 0b10#2 o k
  have hbit : (0b10#2 ++ o ++ k).getLsbD 11 = o.getLsbD 0 := BitVec.getLsbD_append.trans BitVec.getLsbD_append
  have hk : (0b10#2 ++ o ++ k).extractLsb' 0 11 = k := BitVec.extractLsb'_append_eq_right
  rw [decode_group10 hgroup, hbit, hk]

/-- Settles O1: format by format; a word without operands decodes by evaluation. -/
theorem decodeOfEncodeIsIdentity : Obligations.DecodeOfEncodeIsIdentity := by
  intro i _
  cases i with
  | addwf f d | andwf f d | comf f d | decf f d | decfsz f d | incf f d | incfsz f d | iorwf f d | movf f d | rlf f d
  | rrf f d | subwf f d | swapf f d | xorwf f d => cases d <;> exact decode_encodeFD _ f _
  | clrf f | movwf f => exact decode_encodeF _ f
  | bcf f b | bsf f b | btfsc f b | btfss f b => exact decode_encodeFB _ f b
  | addlw k | andlw k | iorlw k | movlw k | retlw k | sublw k | xorlw k => exact decode_encodeK _ k
  | call k => exact decode_jumpWord 0#1 k
  | goto k => exact decode_jumpWord 1#1 k
  | clrw | nop | clrwdt | retfie | ret | sleep | option => rfl

/-! ## The rows of the opcode map -/

/-- A field that a row's mask covers holds what the row's base holds there. -/
theorem row_field {w mask base : InsnWord} (h : w &&& mask = base) {i n : Nat}
    (hm : mask.extractLsb' i n = BitVec.allOnes n := by decide) : w.extractLsb' i n = base.extractLsb' i n := by
  rw [← h, BitVec.extractLsb'_and, hm, BitVec.and_allOnes]

/-- A bit that a row's mask covers is the base's. -/
theorem row_bit {w mask base : InsnWord} (h : w &&& mask = base) {i : Nat}
    (hm : mask.getLsbD i = true := by decide) : w.getLsbD i = base.getLsbD i := by
  rw [← h, BitVec.getLsbD_and, hm, Bool.and_true]

section
variable {w mask base : InsnWord}

/-- Rows of format BYTE (R141). -/
theorem decode_byteRow (h : w &&& mask = base) (hop : mask.extractLsb' 8 4 = BitVec.allOnes 4 := by decide)
    (hgroup : mask.extractLsb' 12 2 = BitVec.allOnes 2 := by decide)
    (hbase : base.extractLsb' 12 2 = 0b00#2 := by decide) :
    decode w = decodeByte (base.extractLsb' 8 4) (w.getLsbD 7) (w.extractLsb' 0 7) := by
  rw [decode_group00 ((row_field h hgroup).trans hbase), row_field h hop]

/-- Rows of format BIT (R143). -/
theorem decode_bitRow (h : w &&& mask = base) (hop : mask.extractLsb' 10 2 = BitVec.allOnes 2 := by decide)
    (hgroup : mask.extractLsb' 12 2 = BitVec.allOnes 2 := by decide)
    (hbase : base.extractLsb' 12 2 = 0b01#2 := by decide) :
    decode w = some (decodeBit (base.extractLsb' 10 2) (w.extractLsb' 7 3) (w.extractLsb' 0 7)) := by
  rw [decode_group01 ((row_field h hgroup).trans hbase), row_field h hop]

/-- Rows of format JUMP (R145). -/
theorem decode_jumpRow (h : w &&& mask = base) (hop : mask.getLsbD 11 = true := by decide)
    (hgroup : mask.extractLsb' 12 2 = BitVec.allOnes 2 := by decide)
    (hbase : base.extractLsb' 12 2 = 0b10#2 := by decide) :
    decode w = some (if base.getLsbD 11 then .goto (w.extractLsb' 0 11) else .call (w.extractLsb' 0 11)) := by
  rw [decode_group10 ((row_field h hgroup).trans hbase), row_bit h hop]

/-- Rows of format LIT without don't-care bits (R144). -/
theorem decode_litRow (h : w &&& mask = base) (hop : mask.extractLsb' 8 4 = BitVec.allOnes 4 := by decide)
    (hgroup : mask.extractLsb' 12 2 = BitVec.allOnes 2 := by decide)
    (hbase : base.extractLsb' 12 2 = 0b11#2 := by decide) :
    decode w = decodeLit (base.extractLsb' 8 4) (w.extractLsb' 0 8) := by
  rw [decode_group11 ((row_field h hgroup).trans hbase), row_field h hop]

end

/-- Bit 7 tells MOVWF from the FIXED group (R142). -/
theorem decode_movwfRow {w : InsnWord} (h : w &&& 0x3F80#14 = 0x0080#14) :
    decode w = some (.movwf (w.extractLsb' 0 7)) := by
  have hi : w.getLsbD 7 = true := row_bit h
  rw [decode_byteRow h, hi]
  rfl

/-- Bit 7 tells CLRF from CLRW (R142). -/
theorem decode_clrfRow {w : InsnWord} (h : w &&& 0x3F80#14 = 0x0180#14) :
    decode w = some (.clrf (w.extractLsb' 0 7)) := by
  have hi : w.getLsbD 7 = true := row_bit h
  rw [decode_byteRow h, hi]
  rfl

/-- NOP, whatever its don't-care bits 6:5 are (R153). -/
theorem decode_nopRow {w : InsnWord} (h : w &&& 0x3F9F#14 = 0x0000#14) : decode w = some .nop := by
  have hi : w.getLsbD 7 = false := row_bit h
  have low : (w.extractLsb' 0 7).extractLsb' 0 5 = 0 :=
    (BitVec.extractLsb'_extractLsb'_of_le (by decide)).trans (row_field h)
  rw [decode_byteRow h, hi]
  exact if_pos low

/-- The four rows with don't-care bits, by the bits of `op` that are given (R153). -/
theorem decodeLit_dontCare (op : BitVec 4) (k : Byte) :
    (op.toNat / 4 = 0 → decodeLit op k = some (.movlw k)) ∧ (op.toNat / 4 = 1 → decodeLit op k = some (.retlw k)) ∧
      (op.toNat / 2 = 6 → decodeLit op k = some (.sublw k)) ∧ (op.toNat / 2 = 7 → decodeLit op k = some (.addlw k)) := by
  have := op.isLt
  unfold decodeLit
  split
  all_goals grind

/-- Those rows by the bits of the word that are given, 13:10 or 13:9. -/
theorem decode_dontCareRows (w : InsnWord) :
    (w.extractLsb' 10 4 = 0b1100#4 → decode w = some (.movlw (w.extractLsb' 0 8))) ∧
      (w.extractLsb' 10 4 = 0b1101#4 → decode w = some (.retlw (w.extractLsb' 0 8))) ∧
      (w.extractLsb' 9 5 = 0b11110#5 → decode w = some (.sublw (w.extractLsb' 0 8))) ∧
      (w.extractLsb' 9 5 = 0b11111#5 → decode w = some (.addlw (w.extractLsb' 0 8))) := by
  obtain ⟨movlw, retlw, sublw, addlw⟩ := decodeLit_dontCare (w.extractLsb' 8 4) (w.extractLsb' 0 8)
  refine ⟨fun h => (decode_group11 ?_).trans (movlw ?_), fun h => (decode_group11 ?_).trans (retlw ?_),
    fun h => (decode_group11 ?_).trans (sublw ?_), fun h => (decode_group11 ?_).trans (addlw ?_)⟩
  all_goals
    simp only [BitVec.toNat_eq, BitVec.extractLsb'_toNat, Nat.shiftRight_eq_div_pow, BitVec.toNat_ofNat] at h ⊢
    omega

/-- The mask 3FFFh gives every bit. -/
theorem eq_of_fullMask {w base : InsnWord} (h : w &&& 0x3FFF#14 = base) : w = base :=
  (BitVec.and_allOnes (x := w)).symm.trans h

/-- Settles O2: the rows in the order of the opcode map, each by its format's rule. -/
theorem wordsOfEachOpcodeRow : Obligations.WordsOfEachOpcodeRow := by
  intro w
  obtain ⟨movlw, retlw, sublw, addlw⟩ := decode_dontCareRows w
  refine ⟨decode_movwfRow, decode_clrfRow, ?clrw, ?_, ?_, ?_, ?_, ?_, ?_, ?_, ?_, ?_, ?_, ?_, ?_, ?_, ?_,
    ?bcf, ?bsf, ?btfsc, ?btfss, ?call, ?goto, fun h => movlw (row_field h), fun h => retlw (row_field h),
    ?iorlw, ?andlw, ?xorlw, ?unassigned, fun h => sublw (row_field h), fun h => addlw (row_field h),
    decode_nopRow, ?ret, ?retfie, ?option, ?sleep, ?clrwdt⟩
  case clrw => exact fun h => eq_of_fullMask h ▸ rfl
  case bcf | bsf | btfsc | btfss => exact fun h => decode_bitRow h
  case call | goto => exact fun h => decode_jumpRow h
  case iorlw | andlw | xorlw | unassigned => exact fun h => decode_litRow h
  case ret | retfie | option | sleep | clrwdt => exact fun h => h ▸ rfl
  all_goals exact fun h => decode_byteRow h

/-! ## The words of no row -/

/-- The not-assigned words of the FIXED group (R157), by evaluation at each of its 128 words. -/
theorem decodeFixed_eq_none : ∀ low : BitVec 7, decodeFixed low = none ↔
    (0x01 ≤ low.toNat ∧ low.toNat ≤ 0x07) ∨ (0x0A ≤ low.toNat ∧ low.toNat ≤ 0x1F) ∨
      (0x21 ≤ low.toNat ∧ low.toNat ≤ 0x3F) ∨ (0x41 ≤ low.toNat ∧ low.toNat ≤ 0x5F) ∨ low.toNat = 0x61 ∨
        0x65 ≤ low.toNat := by
  decide

/-- Group 00 leaves out words of the FIXED group and the neighbours of CLRW (R157, R159). -/
theorem decodeByte_eq_none {op : BitVec 4} {hi : Bool} {f : BitVec 7} :
    decodeByte op hi f = none ↔
      hi = false ∧ (op.toNat = 0 ∧ decodeFixed f = none ∨ op.toNat = 1 ∧ f.toNat ≠ 0x03) := by
  unfold decodeByte
  split
  case h_1 h => cases hi <;> simp [h]
  case h_2 h => cases hi <;> simp [h, BitVec.toNat_eq]
  all_goals grind

/-- Group 11 leaves out one row (R158). -/
theorem decodeLit_eq_none {op : BitVec 4} {k : Byte} : decodeLit op k = none ↔ op.toNat = 0xB := by
  have := op.isLt
  unfold decodeLit
  split
  all_goals grind

/-- Only the groups 00 and 11 leave words out. -/
theorem decode_eq_none {w : InsnWord} :
    decode w = none ↔
      (w.extractLsb' 12 2).toNat = 0 ∧ decodeByte (w.extractLsb' 8 4) (w.getLsbD 7) (w.extractLsb' 0 7) = none ∨
        (w.extractLsb' 12 2).toNat = 3 ∧ decodeLit (w.extractLsb' 8 4) (w.extractLsb' 0 8) = none := by
  have := (w.extractLsb' 12 2).isLt
  unfold decode
  split
  all_goals grind

/-- The first and last word of each not-assigned range (R157, R158, R159). -/
def unassignedRanges : Finset (Nat × Nat) :=
  {(0x0001, 0x0007), (0x000A, 0x001F), (0x0021, 0x003F), (0x0041, 0x005F), (0x0061, 0x0061), (0x0065, 0x007F),
    (0x3B00, 0x3BFF), (0x0100, 0x0102), (0x0104, 0x017F)}

theorem decode_eq_none_iff_range {w : InsnWord} :
    decode w = none ↔ ∃ r ∈ unassignedRanges, w.toNat ∈ Finset.Icc r.1 r.2 := by
  have hw := w.isLt
  have bit7 : w.getLsbD 7 = false ↔ w.toNat / 2 ^ 7 % 2 = 0 := by
    simp [BitVec.getLsbD, Nat.testBit_eq_decide_div_mod_eq]
  rw [decode_eq_none, decodeByte_eq_none, decodeFixed_eq_none, decodeLit_eq_none, bit7]
  simp only [unassignedRanges, Finset.exists_mem_insert, Finset.mem_singleton, exists_eq_left, Finset.mem_Icc,
    BitVec.extractLsb'_toNat, Nat.shiftRight_eq_div_pow]
  omega

theorem unassignedRanges_disjoint :
    (unassignedRanges : Set (Nat × Nat)).PairwiseDisjoint fun r => Finset.Icc r.1 r.2 := by
  have apart : ∀ r ∈ unassignedRanges, ∀ q ∈ unassignedRanges, r ≠ q → r.2 < q.1 ∨ q.2 < r.1 := by decide
  intro r hr q hq hne
  refine Finset.disjoint_left.2 fun n hnr hnq => ?_
  have := apart r hr q hq hne
  rw [Finset.mem_Icc] at hnr hnq
  omega

/-- The numbers below 4000h that no row lists, as the union of the ranges. -/
theorem unassigned_eq_ranges :
    ((List.range 16384).filter fun n => (decode (BitVec.ofNat 14 n)).isNone).toFinset =
      unassignedRanges.biUnion fun r => Finset.Icc r.1 r.2 := by
  have bound : ∀ r ∈ unassignedRanges, r.2 < 16384 := by decide
  ext n
  simp only [List.mem_toFinset, List.mem_filter, List.mem_range, Option.isNone_iff_eq_none, Finset.mem_biUnion,
    decode_eq_none_iff_range, BitVec.toNat_ofNat]
  constructor
  · rintro ⟨hn, r, hr, h⟩
    exact ⟨r, hr, by rwa [Nat.mod_eq_of_lt hn] at h⟩
  · rintro ⟨r, hr, h⟩
    have hn : n < 16384 := (Finset.mem_Icc.1 h).2.trans_lt (bound r hr)
    exact ⟨hn, r, hr, by rwa [Nat.mod_eq_of_lt hn]⟩

/-- The ranges are disjoint, so that their lengths add up (R159). -/
theorem unassigned_count :
    ((List.range 16384).filter fun n => (decode (BitVec.ofNat 14 n)).isNone).length = 502 := by
  rw [← List.toFinset_card_of_nodup (List.nodup_range.filter _), unassigned_eq_ranges,
    Finset.card_biUnion unassignedRanges_disjoint]
  simp only [Nat.card_Icc]
  decide

/-- Settles O3: `decode_eq_none_iff_range` with the ranges written out, and their count. -/
theorem unassignedWordsAreRejected : Obligations.UnassignedWordsAreRejected := by
  refine ⟨fun w => ?_, unassigned_count⟩
  rw [decode_eq_none_iff_range]
  simp only [unassignedRanges, Finset.exists_mem_insert, Finset.mem_singleton, exists_eq_left, Finset.mem_Icc]
  omega

/-! ## The example words -/

/-- Settles O4: each word is written with the fields of its format, which the rule of that format decodes. -/
theorem exampleWordsDecode : Obligations.ExampleWordsDecode :=
  ⟨decode_encodeFD 0b0111#4 0x20 .toF, decode_encodeF 0b0001#4 0x20, decode_encodeFB 0b00#2 0x20 7,
    decode_jumpWord 1#1 0x123, decode_encodeK 0b1111#4 0xFF, decode_encodeK 0b0001#4 0x5A, rfl, rfl⟩

end Sys2Proof.Machine
end

section
/-! Proofs of the statements about the byte-oriented instructions (40_byte_oriented.md): their results as numbers, the
whole next state of each form, and that only a store to it changes a general purpose byte. -/

namespace Sys2Proof.Machine

/-! ## Results as numbers -/

theorem byte_eq_ofNat {r : Byte} {n : Nat} (h : r.toNat = n) : r = BitVec.ofNat 8 n := by
  rw [← h, BitVec.ofNat_toNat, BitVec.setWidth_eq]

theorem byte_eq_zero_iff {r : Byte} {n : Nat} (h : r.toNat = n) : r = 0 ↔ n = 0 := by
  rw [← h]
  exact BitVec.toNat_inj.symm

/-- The Z flag of a result (R45). -/
theorem beq_zero_eq_decide {r : Byte} {n : Nat} (h : r.toNat = n) : (r == 0) = decide (n = 0) := by
  rw [beq_eq_decide]
  exact decide_eq_decide.2 (byte_eq_zero_iff h)

theorem add_one_toNat (v : Byte) : (v + 1).toNat = (v.toNat + 1) % 256 := BitVec.toNat_add v 1

theorem sub_one_toNat (v : Byte) : (v - 1).toNat = (v.toNat + 255) % 256 := by
  rw [BitVec.toNat_sub, Nat.add_comm]
  rfl

theorem sub_toNat (m w : Byte) : (m - w).toNat = (256 + m.toNat - w.toNat) % 256 := by
  rw [BitVec.toNat_sub, ← Nat.sub_add_comm w.isLt.le]

/-- The sum with its flags (R46). -/
theorem add_eq_ofNat (a b : Byte) :
    add a b =
      ⟨BitVec.ofNat 8 ((a.toNat + b.toNat) % 256),
        ⟨some (decide (255 < a.toNat + b.toNat)), some (decide (15 < a.toNat % 16 + b.toNat % 16)),
          some (decide ((a.toNat + b.toNat) % 256 = 0))⟩⟩ := by
  have sum : (a + b).toNat = (a.toNat + b.toNat) % 256 := BitVec.toNat_add a b
  rw [add, beq_zero_eq_decide sum, byte_eq_ofNat sum]

/-- The difference with its flags, which are 1 when there is no borrow (R47). -/
theorem sub_eq_ofNat (m w : Byte) :
    sub m w =
      ⟨BitVec.ofNat 8 ((256 + m.toNat - w.toNat) % 256),
        ⟨some (decide (w.toNat ≤ m.toNat)), some (decide (w.toNat % 16 ≤ m.toNat % 16)),
          some (decide ((256 + m.toNat - w.toNat) % 256 = 0))⟩⟩ := by
  rw [sub, beq_zero_eq_decide (sub_toNat m w), byte_eq_ofNat (sub_toNat m w)]

theorem getLsbD_seven (v : Byte) : v.getLsbD 7 = decide (128 ≤ v.toNat) := by
  have := v.isLt
  rw [BitVec.getLsbD, Nat.testBit_eq_decide_div_mod_eq]
  exact decide_eq_decide.2 (by omega)

theorem getLsbD_zero (v : Byte) : v.getLsbD 0 = decide (v.toNat % 2 = 1) := by
  rw [BitVec.getLsbD, Nat.testBit_eq_decide_div_mod_eq, Nat.pow_zero, Nat.div_one]

/-- The nine bits C : v moved up by one, bit 7 into C (R48, R215). -/
theorem rotateLeft_eq_ofNat (c : Bool) (v : Byte) :
    rotateLeft c v =
      ⟨BitVec.ofNat 8 ((2 * v.toNat + if c then 1 else 0) % 256), ⟨some (decide (128 ≤ v.toNat)), none, none⟩⟩ := by
  have value : (v.extractLsb' 0 7 ++ BitVec.ofBool c).toNat = (2 * v.toNat + if c then 1 else 0) % 256 := by
    rw [append_toNat, BitVec.extractLsb'_toNat, Nat.shiftRight_zero, BitVec.toNat_ofBool]
    cases c
    all_goals
      simp only [Bool.toNat, cond, if_true, Bool.false_eq_true, if_false]
      omega
  rw [rotateLeft, getLsbD_seven, byte_eq_ofNat value]

/-- The nine bits C : v moved down by one, bit 0 into C (R48, R216). -/
theorem rotateRight_eq_ofNat (c : Bool) (v : Byte) :
    rotateRight c v =
      ⟨BitVec.ofNat 8 ((v.toNat + 256 * if c then 1 else 0) / 2), ⟨some (decide (v.toNat % 2 = 1)), none, none⟩⟩ := by
  have value : (BitVec.ofBool c ++ v.extractLsb' 1 7).toNat = (v.toNat + 256 * if c then 1 else 0) / 2 := by
    have := v.isLt
    rw [append_toNat, BitVec.extractLsb'_toNat, Nat.shiftRight_eq_div_pow, BitVec.toNat_ofBool]
    cases c
    all_goals
      simp only [Bool.toNat, cond, if_true, Bool.false_eq_true, if_false]
      omega
  rw [rotateRight, getLsbD_zero, byte_eq_ofNat value]

/-! ## The `f, d` instructions

The next states of `fileOp` with the result and the flags given as numbers. -/

/-- ADDWF and SUBWF: all three flags are listed, so STATUS as the destination is no case of its own (R50). -/
theorem fileOp_all_of_eq {f : BitVec 7} (d : Dest) {fn : Byte → Alu} {s : State} {res : Byte} {c dc z : Bool}
    (h : fn (readValue (operandReg f s) s) = ⟨res, ⟨some c, some dc, some z⟩⟩) :
    fileOp f d fn s =
      afterFile d (operandReg f s) res (fun st => statusOf st z dc c) (readEffect (operandReg f s) s) := by
  rw [fileOp_all f d fn s c dc z (congrArg Alu.flags h), h]

theorem fileOp_carry_of_eq {f : BitVec 7} {d : Dest} {fn : Byte → Alu} {s : State} {res : Byte} {c : Bool}
    (hd : plainDest d (operandReg f s)) (h : fn (readValue (operandReg f s) s) = ⟨res, ⟨some c, none, none⟩⟩) :
    fileOp f d fn s =
      afterFile d (operandReg f s) res (fun st => statusOf st (st.getLsbD 2) (st.getLsbD 1) c)
        (readEffect (operandReg f s) s) := by
  rw [fileOp_carry f d fn s c hd (congrArg Alu.flags h), h]

theorem fileOp_withZ_of_toNat {f : BitVec 7} {d : Dest} {s : State} (fn : Byte → Byte) {n : Nat}
    (hd : plainDest d (operandReg f s)) (h : (fn (readValue (operandReg f s) s)).toNat = n) :
    fileOp f d (fun v => withZ (fn v)) s =
      afterFile d (operandReg f s) (BitVec.ofNat 8 n)
        (fun st => statusOf st (decide (n = 0)) (st.getLsbD 1) (st.getLsbD 0)) (readEffect (operandReg f s) s) := by
  rw [fileOp_withZ f d fn s hd, decide_eq_decide.2 (byte_eq_zero_iff h), byte_eq_ofNat h]

/-- Settles O14: `add_eq_ofNat` and `sub_eq_ofNat` give the results and all three flags. -/
theorem addSubtractFileResult : Obligations.AddSubtractFileResult := by
  intro f d s r v w
  refine ⟨congrArg Host.Outcome.next ?_, congrArg Host.Outcome.next ?_⟩
  · exact fileOp_all_of_eq d (fn := fun v => add s.w v) (add_eq_ofNat s.w _)
  · exact fileOp_all_of_eq d (fn := fun v => sub v s.w) (sub_eq_ofNat _ s.w)

/-- Settles O15: each of the five is an `f, d` instruction that affects Z alone. -/
theorem logicFileResult : Obligations.LogicFileResult := by
  intro f d s h r v after
  have next (fn : Byte → Byte) : Host.Outcome.next (fileOp f d (fun v => withZ (fn v)) s) = after (fn v) :=
    congrArg Host.Outcome.next (fileOp_withZ f d fn s h)
  exact ⟨next fun v => s.w &&& v, next fun v => s.w ||| v, next fun v => s.w ^^^ v, next fun v => ~~~v, next id⟩

/-- Settles O16. -/
theorem incrementDecrementFileResult : Obligations.IncrementDecrementFileResult := by
  intro f d s h r v after
  refine ⟨congrArg Host.Outcome.next ?_, congrArg Host.Outcome.next ?_⟩
  · exact fileOp_withZ_of_toNat (fun v => v + 1) h (add_one_toNat _)
  · exact fileOp_withZ_of_toNat (fun v => v - 1) h (sub_one_toNat _)

/-- Settles O17: `rotateLeft_eq_ofNat` and `rotateRight_eq_ofNat` give the results and C. -/
theorem rotateFileResult : Obligations.RotateFileResult := by
  intro f d s h r v c
  refine ⟨congrArg Host.Outcome.next ?_, congrArg Host.Outcome.next ?_⟩
  · exact fileOp_carry_of_eq h (rotateLeft_eq_ofNat s.c _)
  · exact fileOp_carry_of_eq h (rotateRight_eq_ofNat s.c _)

/-! ## The instructions that may skip -/

theorem fileSkip_of_toNat {f : BitVec 7} {d : Dest} {s : State} (fn : Byte → Byte) {n : Nat}
    (hd : d = .toF → operandReg f s ≠ .pcl) (h : (fn (operandValue f s)).toNat = n) :
    fileSkip f d fn s =
      (let t := afterFile d (operandReg f s) (BitVec.ofNat 8 n) id (readEffect (operandReg f s) s)
       if n = 0 then { t with pc := s.pc + 2, cycles := 2 } else t) := by
  rw [fileSkip_eq f d fn s hd]
  simp only [byte_eq_zero_iff h, ← byte_eq_ofNat h]

/-- Settles O18. -/
theorem skipOnZeroResult : Obligations.SkipOnZeroResult := by
  intro f d s h r v after
  refine ⟨congrArg Host.Outcome.next ?_, congrArg Host.Outcome.next ?_⟩
  · exact fileSkip_of_toNat (fun v => v - 1) h (sub_one_toNat _)
  · exact fileSkip_of_toNat (fun v => v + 1) h (add_one_toNat _)

/-- With PCL as the destination the write decides PC and the result is not tested (log 14). -/
theorem fileSkip_pcl {f : BitVec 7} {s : State} (fn : Byte → Byte) (h : operandReg f s = .pcl) :
    fileSkip f .toF fn s = { s with pc := s.pclath ++ fn (peek .pcl s), cycles := 2, rmw := .none } := by
  rw [fileSkip, fileEffect, h]
  rfl

/-- Settles O19: PCL reads PC + 1, to which 1 is added or from which it is taken away. -/
theorem skipInstructionWritingPcl : Obligations.SkipInstructionWritingPcl := by
  intro f s h
  have dec : (peek .pcl s - 1).toNat = s.pc.toNat % 256 := by
    rw [sub_one_toNat, peek_pcl_toNat]
    omega
  have inc : (peek .pcl s + 1).toNat = (s.pc.toNat + 2) % 256 := by
    rw [add_one_toNat, peek_pcl_toNat]
    omega
  rw [← byte_eq_ofNat dec, ← byte_eq_ofNat inc]
  exact ⟨congrArg Host.Outcome.next (fileSkip_pcl (fun v => v - 1) h),
    congrArg Host.Outcome.next (fileSkip_pcl (fun v => v + 1) h)⟩

/-! ## Writes without a read -/

/-- A write to a register that is not PCL ends with PC advanced by one (R36). -/
theorem advance_memWrite {r : Reg} (h : r ≠ .pcl) (v : Byte) (s : State) :
    advance (memWrite r v s) = { memWrite r v s with pc := s.pc + 1, cycles := 1 } := by
  rw [advance, memWrite_pc h]

theorem finish_of_ne_pcl {r : Reg} (h : r ≠ .pcl) (s : State) : finish (r == .pcl) s = advance s := by
  rw [beq_false_of_ne h]
  rfl

/-- Settles O22: `movwf_pcl`, and for every other register the write with PC advanced. -/
theorem movwfResult : Obligations.MovwfResult := by
  intro f s r
  by_cases hp : r = .pcl
  · rw [if_pos hp]
    exact movwf_pcl hp
  · rw [if_neg hp, ← advance_memWrite hp, ← finish_of_ne_pcl hp]
    rfl

/-- What CLRF leaves in STATUS: `000u u1uu` if STATUS is the register (R204). -/
theorem clrfStatus_status (old : Byte) : clrfStatus .status old (merge 0xE7 old 0) = (old &&& 0x1B) ||| 0x04 := by
  revert old
  decide +kernel

/-- CLRF sets Z alone when STATUS is not the register (R204). -/
theorem clrfStatus_of_ne {r : Reg} (h : r ≠ .status) (old written : Byte) :
    clrfStatus r old written = written ||| 0x04 := by
  rw [clrfStatus, if_neg h]
  rfl

/-- Settles O20: PCL, STATUS, and every other register, whose write leaves STATUS and PC. -/
theorem clearFileResult : Obligations.ClearFileResult := by
  intro f s r
  have run : exec (.clrf f) s = .next (finish (r == .pcl)
      { memWrite r 0 s with status := clrfStatus r s.status (memWrite r 0 s).status }) := rfl
  rw [run]
  by_cases hp : r = .pcl
  · rw [if_pos hp, hp]
    rfl
  · rw [if_neg hp, finish_of_ne_pcl hp]
    by_cases hs : r = .status
    · rw [if_pos hs, hs, ← clrfStatus_status]
      rfl
    · rw [if_neg hs, clrfStatus_of_ne hs, memWrite_status hs, ← memWrite_pc hp 0 s]
      rfl

/-- Settles O21: CLRW and MOVLW are literal operations, the one with Z, the other without a flag. -/
theorem clrwMovlwNopResult : Obligations.ClrwMovlwNopResult := by
  intro k s
  have zero : (zeroOf 0).apply s.status = s.status ||| 0x04 := (apply_zero true s.status).trans (statusOf_zero s.status)
  refine ⟨congrArg Host.Outcome.next ?_, rfl, rfl⟩
  rw [← zero]
  rfl

/-! ## The frame of the general purpose bytes -/

/-- A general purpose byte is its cell of RAM. -/
theorem peek_gpr_congr {s t : State} (h : t.ram = s.ram) (a : Nat) : peek (.gpr a) t = peek (.gpr a) s :=
  congrArg (Memory.read ramBlank · a) h

/-- A write of another register leaves a general purpose byte (R32, R113). -/
theorem peek_gpr_memWrite_other {r : Reg} {a : Nat} (h : r ≠ .gpr a) (v : Byte) (s : State) :
    peek (.gpr a) (memWrite r v s) = peek (.gpr a) s := by
  cases r with
  | gpr b => exact peek_writeGpr_other (fun e => h e.symm) v s
  | _ => exact peek_gpr_congr (memWrite_ram _ v s) a

/-- A shape that stores to a register leaves RAM as one write to that register does. -/
theorem Shape.run_ram_of_store {p : Shape} {r : Reg} {s : State} (h : p.storeReg s = some r) :
    ∃ (v : Byte) (x : State), x.ram = s.ram ∧ (p.run s).ram = (memWrite r v x).ram := by
  cases p with
  | file f d fn =>
    cases d with
    | toW => cases h
    | toF =>
      cases h
      exact ⟨_, readEffect _ s, readEffect_ram _ s, (finish_kept _ _).ram.trans (putFlags_ram _ _ _)⟩
  | skip f d fn =>
    cases d with
    | toW => cases h
    | toF =>
      cases h
      exact ⟨_, readEffect _ s, readEffect_ram _ s, (finishSkip_kept _ _ _).ram.trans (putFlags_ram _ _ _)⟩
  | clear f =>
    cases h
    exact ⟨0x00, s, rfl, (finish_kept _ _).ram⟩
  | store f =>
    cases h
    exact ⟨s.w, s, rfl, (finish_kept _ _).ram⟩
  | option =>
    cases h
    exact ⟨s.w, s, rfl, rfl⟩
  | test | literal | nop | call | goto | ret | retlw | retfie | clrwdt | sleep => cases h

theorem Shape.run_peek_gpr {p : Shape} {s : State} {a : Nat} (h : p.storeReg s ≠ some (.gpr a)) :
    peek (.gpr a) (p.run s) = peek (.gpr a) s := by
  cases hr : p.storeReg s with
  | none => exact peek_gpr_congr (Shape.run_kept p s hr).ram a
  | some r =>
    have other : r ≠ .gpr a := fun e => h (hr.trans (congrArg some e))
    obtain ⟨v, x, hx, hrun⟩ := Shape.run_ram_of_store hr
    calc peek (.gpr a) (p.run s) = peek (.gpr a) (memWrite r v x) := peek_gpr_congr hrun a
      _ = peek (.gpr a) x := peek_gpr_memWrite_other other v x
      _ = peek (.gpr a) s := peek_gpr_congr hx a

/-- Settles O35, for the shape of the instruction. -/
theorem generalBytesFrame : Obligations.GeneralBytesFrame := by
  intro i s t ht a ha
  rw [← exec_next_iff.1 ht]
  exact Shape.run_peek_gpr (by rwa [← storeReg_eq_shape])

end Sys2Proof.Machine
end

section
/-! Proofs of the statements about the bit-oriented instructions and SWAPF (41_bit_oriented.md, R218): the byte that is
written back, the bit that is tested as a number, and the whole next state of a test. -/

namespace Sys2Proof.Machine

/-! ## Writing a byte back -/

/-- Exchanging the nibbles as arithmetic (R218). -/
theorem swapNibbles_toNat (v : Byte) : (swapNibbles v).toNat = v.toNat % 16 * 16 + v.toNat / 16 := by
  have := v.isLt
  rw [swapNibbles, append_toNat, BitVec.extractLsb'_toNat, BitVec.extractLsb'_toNat, Nat.shiftRight_zero,
    Nat.shiftRight_eq_div_pow]
  omega

/-- Settles O23: each of the three is an `f, d` instruction that affects no flag; `setBit` is the mask of each bit
instruction, and `swapNibbles_toNat` gives SWAPF's result as a number. -/
theorem bitWriteAndSwapResult : Obligations.BitWriteAndSwapResult := by
  intro f d b s r v
  refine ⟨congrArg Host.Outcome.next ?_, congrArg Host.Outcome.next ?_, congrArg Host.Outcome.next ?_⟩
  · exact fileOp_plain f .toF (fun v => setBit v b.toNat false) s
  · exact fileOp_plain f .toF (fun v => setBit v b.toNat true) s
  · rw [← byte_eq_ofNat (swapNibbles_toNat v)]
    exact fileOp_plain f d swapNibbles s

/-! ## Testing a bit -/

/-- Bit `i` of a byte as a number, bit 0 the least significant (R240). -/
theorem getLsbD_beq_eq_decide (v : Byte) (i : Nat) (want : Bool) :
    (v.getLsbD i == want) = decide (v.toNat / 2 ^ i % 2 = want.toNat) := by
  rw [BitVec.getLsbD, Nat.testBit_eq_decide_div_mod_eq, beq_eq_decide, decide_eq_decide]
  cases want
  · exact decide_eq_false_iff_not.trans Nat.mod_two_ne_one
  · exact decide_eq_true_iff

/-- The end of an instruction that may skip and does not write PCL: PC + 2 in two cycles or PC + 1 in one (R245). -/
theorem finishSkip_decide (p : Prop) [Decidable p] (s : State) :
    finishSkip false (decide p) s =
      { s with pc := if p then s.pc + 2 else s.pc + 1, cycles := if p then 2 else 1 } := by
  by_cases h : p
  · simp only [h, decide_true, if_true]
    rfl
  · simp only [h, decide_false, if_false]
    rfl

/-- A bit test leaves what the read of its operand leaves, with PC and the cycles of its outcome (R243, R244). -/
theorem bitSkip_eq (f : BitVec 7) (b : BitVec 3) (want : Bool) (s : State) :
    bitSkip f b want s =
      (let r := operandReg f s
       let bit := (readValue r s).toNat / 2 ^ b.toNat % 2
       { readEffect r s with
         pc := if bit = want.toNat then s.pc + 2 else s.pc + 1
         cycles := if bit = want.toNat then 2 else 1 }) := by
  rw [bitSkip, getLsbD_beq_eq_decide, finishSkip_decide, readEffect_pc]

/-- Settles O24: BTFSC is the bit test that wants a 0, BTFSS the one that wants a 1. -/
theorem bitTestResult : Obligations.BitTestResult := by
  intro f b s r bit
  exact ⟨congrArg Host.Outcome.next (bitSkip_eq f b false s), congrArg Host.Outcome.next (bitSkip_eq f b true s)⟩

end Sys2Proof.Machine
end

section
/-! Proofs of the statements about the literal and control operations (42_literal_control.md) and OPTION: the whole next
state of each, the target of a jump as a number, and what the spurious increment of Timer0 does. -/

namespace Sys2Proof.Machine

/-! ## Literal operations -/

/-- A literal operation that lists all three flags. -/
theorem literalOp_all (res : Byte) (c dc z : Bool) (s : State) :
    literalOp ⟨res, ⟨some c, some dc, some z⟩⟩ s =
      { s with w := res, status := statusOf s.status z dc c, pc := s.pc + 1, cycles := 1 } := by
  rw [literalOp, putFlags_all]
  rfl

/-- A literal operation that affects Z alone. -/
theorem literalOp_withZ (res : Byte) (s : State) :
    literalOp (withZ res) s =
      { s with
        w := res
        status := statusOf s.status (decide (res = 0)) (s.status.getLsbD 1) (s.status.getLsbD 0)
        pc := s.pc + 1
        cycles := 1 } := by
  rw [literalOp, withZ, zeroOf, putFlags_plain, apply_zero, beq_eq_decide]
  rfl

/-- The difference is 0 exactly if the operands are equal (R45, R47). -/
theorem sub_mod_eq_zero_iff (m w : Byte) : (256 + m.toNat - w.toNat) % 256 = 0 ↔ m.toNat = w.toNat := by
  have := m.isLt
  have := w.isLt
  omega

/-- Settles O25: `add_eq_ofNat` and `sub_eq_ofNat` give the results and all three flags. -/
theorem literalAddSubtractResult : Obligations.LiteralAddSubtractResult := by
  intro k s w
  refine ⟨congrArg Host.Outcome.next ?_, congrArg Host.Outcome.next ?_⟩
  · rw [add_eq_ofNat]
    exact literalOp_all _ _ _ _ s
  · rw [sub_eq_ofNat, decide_eq_decide.2 (sub_mod_eq_zero_iff k s.w)]
    exact literalOp_all _ _ _ _ s

/-- Settles O26: each of the three is a literal operation that affects Z alone. -/
theorem literalLogicResult : Obligations.LiteralLogicResult := by
  intro k s after
  have next (res : Byte) : Host.Outcome.next (literalOp (withZ res) s) = after res :=
    congrArg Host.Outcome.next (literalOp_withZ res s)
  exact ⟨next _, next _, next _⟩

/-! ## Jumps and the return stack -/

/-- PCLATH<4:3> : k as a number (R149). -/
theorem pageTarget_eq_ofNat (k : BitVec 11) (s : State) :
    pageTarget k s = BitVec.ofNat 13 (s.pclath.toNat / 8 * 2048 + k.toNat) := by
  have page : s.pclath.toNat / 8 < 4 := by have := s.pclath.isLt; omega
  have low := k.isLt
  apply BitVec.eq_of_toNat_eq
  rw [pageTarget, append_toNat, BitVec.extractLsb'_toNat, Nat.shiftRight_eq_div_pow, BitVec.toNat_ofNat]
  omega

/-- The value pushed last is on top (R41, R42). -/
theorem tos_push (v : CodeAddr) (s : State) : tos (push v s) = v := by
  have back : (push v s).sp - 1 = s.sp := BitVec.add_sub_cancel s.sp 1
  rw [tos_eq_entry, entry_push, if_pos back]

/-- Settles O27: CALL is a push followed by the jump that GOTO is. -/
theorem callGotoResult : Obligations.CallGotoResult := by
  intro k s target
  have jumps : pageTarget k s = target := pageTarget_eq_ofNat k s
  rw [← jumps]
  exact ⟨⟨jump (pageTarget k s) (push (s.pc + 1) s), rfl, tos_push (s.pc + 1) s, rfl⟩, rfl⟩

/-- Setting GIE (R268). -/
theorem setBit_gie (v : Byte) : setBit v 7 true = v ||| 0x80 := rfl

/-- Settles O28: each of the three jumps to the top of the stack. -/
theorem returnResult : Obligations.ReturnResult := by
  intro k s
  rw [← setBit_gie]
  exact ⟨rfl, rfl, rfl⟩

/-! ## CLRWDT and SLEEP -/

/-- What CLRWDT leaves in STATUS (R264). -/
theorem setToPd_set_set (st : Byte) : setToPd true true st = st ||| 0x18 := BitVec.or_assoc st 0x10 0x08

/-- What SLEEP leaves in STATUS (R271). -/
theorem setToPd_set_clear (st : Byte) : setToPd true false st = (st &&& 0xF7) ||| 0x10 :=
  BitVec.and_or_distrib_right

/-- Settles O29: both clear the watchdog by `clearWdt`; SLEEP with a wake condition only advances. -/
theorem clrwdtSleepResult : Obligations.ClrwdtSleepResult := by
  intro s pre counted
  rw [← setToPd_set_set, ← setToPd_set_clear]
  exact ⟨rfl, rfl⟩

/-! ## OPTION -/

/-- Outside the race of a read-modify-write every raised flag is set (R120, U12). -/
theorem raiseIntcon_intcon_of_ne (m : Byte) (s : State) (h : s.rmw ≠ .intcon) :
    (raiseIntcon m s).intcon = s.intcon ||| m := by
  rw [raiseIntcon, if_neg fun race => h race.1]

theorem t0if_masked : ∀ v : Byte, t0if &&& v = 0 ∨ t0if &&& v = t0if := by decide +kernel

/-- Raising T0IF sets it or, in the race, may leave it (R120, U12). -/
theorem raiseIntcon_t0if (s : State) :
    (raiseIntcon t0if s).intcon = s.intcon ∨ (raiseIntcon t0if s).intcon = s.intcon ||| t0if := by
  unfold raiseIntcon
  split
  · rcases t0if_masked s.free with none | all
    · exact .inl ((congrArg (s.intcon ||| ·) none).trans BitVec.or_zero)
    · exact .inr (congrArg (s.intcon ||| ·) all)
  · exact .inr rfl

/-- INTCON after a Timer0 increment: T0IF is set only at the overflow (R344), and there outside the race of a
read-modify-write always. -/
theorem tmr0Tick_intcon (s : State) :
    ((tmr0Tick s).intcon = s.intcon ∨ (s.t0.tmr0 = 0xFF ∧ (tmr0Tick s).intcon = s.intcon ||| t0if)) ∧
      (s.t0.tmr0 = 0xFF → s.rmw ≠ .intcon → (tmr0Tick s).intcon = s.intcon ||| t0if) := by
  unfold tmr0Tick
  simp only
  split
  next overflow =>
    exact ⟨(raiseIntcon_t0if _).imp_right fun h => ⟨overflow, h⟩, fun _ h => raiseIntcon_intcon_of_ne t0if _ h⟩
  next below => exact ⟨.inl rfl, fun overflow => absurd overflow below⟩

/-- A write of OPTION leaves Timer0 and INTCON, or has changed PSA and given Timer0 one increment (R345, U15). -/
theorem writeOption_cases (v : Byte) (s : State) :
    ((writeOption v s).t0.tmr0 = s.t0.tmr0 ∧ (writeOption v s).intcon = s.intcon) ∨
      (v.getLsbD 3 ≠ s.psa ∧ writeOption v s = tmr0Tick ({ s with option := v } : State).spend) := by
  unfold writeOption
  simp only
  split
  next change =>
    split
    · exact .inr ⟨change.1, rfl⟩
    · exact .inl ⟨rfl, rfl⟩
  next => exact .inl ⟨rfl, rfl⟩

/-- With the prescaler not clocked since it was last cleared there is no increment (R345; log 21). -/
theorem writeOption_not_counted {s : State} (h : s.t0.counted = false) (v : Byte) :
    writeOption v s = { s with option := v } :=
  if_neg fun change => Bool.false_ne_true (h.symm.trans change.2)

/-- Settles O30: OPTION is `writeOption` of W, then PC advances; `writeOption_eq` is its frame and `writeOption_cases` says
when Timer0 is incremented. -/
theorem optionResult : Obligations.OptionResult := by
  intro s
  have run : exec .option s = .next (advance (writeOption s.w s)) := rfl
  have frame := writeOption_eq s.w s
  refine ⟨⟨advance (writeOption s.w s), run, congrArg State.option frame, writeOption_w s.w s, writeOption_status s.w s,
    congrArg (· + 1) (writeOption_pc s.w s), rfl, writeOption_ram s.w s, ?timer0, congrArg advance frame⟩,
    fun same => ?_⟩
  case timer0 =>
    rcases writeOption_cases s.w s with unchanged | ⟨psa, tick⟩
    · exact .inl unchanged
    · have ticked : advance (writeOption s.w s) = advance (tmr0Tick ({ s with option := s.w } : State).spend) :=
        congrArg advance tick
      obtain ⟨flag, overflow⟩ := tmr0Tick_intcon ({ s with option := s.w } : State).spend
      rw [ticked]
      exact .inr ⟨congrArg (·.t0.tmr0) (tmr0Tick_eq _), psa, flag, overflow⟩
  · rw [run, same.elim writeOption_same_psa fun h => writeOption_not_counted h s.w]
    rfl

end Sys2Proof.Machine
end

section
/-! Proofs of the statements about interrupts and sleep (60_exceptions.md): the sources of the interrupt condition, entry and
return, the instruction that a pending interrupt lets run, and the wake-up. -/

namespace Sys2Proof.Machine

/-! ## Every instruction answers -/

/-- Settles O37: each instruction answers the next state of its shape. -/
theorem everyInstructionCompletes : Obligations.EveryInstructionCompletes := fun i s => ⟨_, exec_eq_run i s⟩

/-! ## The interrupt condition -/

/-- A request of INTCON is a flag with the enable three places above it (R312). -/
theorem coreRequest_iff_exists (s : State) :
    coreRequest s = true ↔ ∃ j < 3, s.intcon.getLsbD j = true ∧ s.intcon.getLsbD (j + 3) = true := by
  simp only [coreRequest, Bool.or_eq_true, Bool.and_eq_true]
  constructor
  · rintro ((⟨en, flag⟩ | ⟨en, flag⟩) | ⟨en, flag⟩)
    · exact ⟨2, by decide, flag, en⟩
    · exact ⟨1, by decide, flag, en⟩
    · exact ⟨0, by decide, flag, en⟩
  · rintro ⟨j, hj, flag, en⟩
    obtain rfl | rfl | rfl : j = 0 ∨ j = 1 ∨ j = 2 := by omega
    · exact .inr ⟨en, flag⟩
    · exact .inl (.inr ⟨en, flag⟩)
    · exact .inl (.inl ⟨en, flag⟩)

/-- PIE1 has no enable in bit 3 (R92). -/
theorem State.Inv.pie1_three {s : State} (h : s.Inv) : s.pie1.getLsbD 3 = false := by
  simpa using congrArg (·.getLsbD 3) h.pie1

/-- A request of PIR1 is a flag, as PIR1 reads, with the enable of the same position (R55, R312). -/
theorem peripheralRequest_iff_exists {s : State} (h : s.Inv) :
    peripheralRequest s = true ↔
      ∃ j < 8, (peek .pir1 s).getLsbD j = true ∧ (peek .pie1 s).getLsbD j = true := by
  have mask : ∀ j < 8, (0xF7 : Byte).getLsbD j = !decide (j = 3) := by decide
  rw [peripheralRequest_iff, byte_ne_zero_iff]
  refine exists_congr fun j => and_congr_right fun hj => ?_
  show (s.pie1 &&& setBit s.pir1 5 s.rcif &&& 0xF7).getLsbD j = true ↔
    (setBit s.pir1 5 s.rcif).getLsbD j = true ∧ s.pie1.getLsbD j = true
  simp only [BitVec.getLsbD_and, mask j hj, Bool.and_eq_true, Bool.not_eq_true', decide_eq_false_iff_not]
  constructor
  · rintro ⟨⟨en, flag⟩, -⟩
    exact ⟨flag, en⟩
  · rintro ⟨flag, en⟩
    refine ⟨⟨en, flag⟩, ?_⟩
    rintro rfl
    exact Bool.false_ne_true (h.pie1_three.symm.trans en)

/-- Settles O39: the ten sources, those of INTCON and those behind PEIE. -/
theorem interruptConditionSources : Obligations.InterruptConditionSources := by
  intro s h
  constructor
  · rw [wake, Bool.or_eq_true, Bool.and_eq_true, coreRequest_iff_exists, peripheralRequest_iff_exists h]
  · exact Bool.and_eq_true_iff

/-! ## Entry and return -/

/-- Clearing GIE (R320). -/
theorem setBit_gie_clear (v : Byte) : setBit v 7 false = v &&& 0x7F := rfl

/-- A requested interrupt of an awake core that has nothing prefetched is taken by the CPU's move. -/
theorem cpuStep_takes {s : State} {hold : Bool} (hs : s.sleeping = false) (hd : interruptDue hold s = true) :
    cpuStep hold s = .next (takeInterrupt s) := by
  simp [cpuStep, hs, hd]

/-- Without `hold` a requested interrupt is due, but for the instruction after SLEEP (R384). -/
theorem interruptDue_at_once {s : State} (hp : s.prefetched = false) (hi : irq s = true) : interruptDue false s = true := by
  simp [interruptDue, hp, hi]

/-- Settles O40: the step takes the interrupt, whose effect before its two cycles is `interruptEntry`. -/
theorem interruptEntryAtBoundary : Obligations.InterruptEntryAtBoundary := by
  intro s he hs hp hi
  rw [step_idle he, cpuStep_takes hs (interruptDue_at_once hp hi), ← setBit_gie_clear]
  exact ⟨_, rfl, tos_push s.pc s, rfl⟩

/-- GIE cleared and set again, in a byte that has it set. -/
theorem setBit_gie_restored {v : Byte} (h : v.getLsbD 7 = true) : setBit (setBit v 7 false) 7 true = v := by
  refine BitVec.eq_of_getLsbD_eq fun j _ => ?_
  rw [setBit_getLsbD (by decide), setBit_getLsbD (by decide)]
  split
  next hj => rw [hj, h]
  next => rfl

/-- Settles O41: RETFIE jumps to the address that the entry pushed. -/
theorem entryThenRetfieReturns : Obligations.EntryThenRetfieReturns := by
  intro s h
  exact ⟨interruptReturn (interruptEntry s), rfl, tos_push s.pc s, BitVec.add_sub_cancel s.sp 1,
    setBit_gie_restored h, rfl, rfl, rfl, rfl, rfl⟩

/-! ## The instruction that a pending interrupt lets run -/

@[simp] theorem finish_prefetched (p : Bool) (s : State) : (finish p s).prefetched = s.prefetched := by cases p <;> rfl
@[simp] theorem finish_irqHeld (p : Bool) (s : State) : (finish p s).irqHeld = s.irqHeld := by cases p <;> rfl
@[simp] theorem finishSkip_prefetched (p t : Bool) (s : State) : (finishSkip p t s).prefetched = s.prefetched := by
  cases p <;> cases t <;> rfl
@[simp] theorem finishSkip_irqHeld (p t : Bool) (s : State) : (finishSkip p t s).irqHeld = s.irqHeld := by
  cases p <;> cases t <;> rfl

@[simp] theorem fileEffect_prefetched (f : BitVec 7) (d : Dest) (fn : Byte → Alu) (s : State) :
    (fileEffect f d fn s).prefetched = s.prefetched := by
  cases d <;> simp [fileEffect, putResult]

@[simp] theorem fileEffect_irqHeld (f : BitVec 7) (d : Dest) (fn : Byte → Alu) (s : State) :
    (fileEffect f d fn s).irqHeld = s.irqHeld := by
  cases d <;> simp [fileEffect, putResult]

/-- No instruction's effect changes which requests have been run past, nor what SLEEP prefetched (R321, R384). -/
theorem Shape.run_hold (p : Shape) (s : State) :
    (p.run s).prefetched = s.prefetched ∧ (p.run s).irqHeld = s.irqHeld := by
  cases p with
  | file | skip | test | clear | store | literal =>
    simp [Shape.run, fileOp, fileSkip, bitSkip, clearFile, fileWrite, literalOp]
  | option => exact ⟨memWrite_prefetched .option s.w s, memWrite_irqHeld .option s.w s⟩
  | sleep =>
    unfold Shape.run goToSleep
    dsimp only
    split <;> exact ⟨rfl, rfl⟩
  | nop | call | goto | ret | retlw | retfie | clrwdt => exact ⟨rfl, rfl⟩

/-- After an instruction the requests run past are those pending as it began that its effect has not withdrawn (R321). -/
theorem finishStep_held {i : Instr} {s u : State} (hu : exec i (beginInstr i s) = .next u) :
    (finishStep (lapse u)).prefetched = false ∧
      (finishStep (lapse u)).irqHeld = requests s &&& requests u := by
  have d := finishStep_devices (lapse u)
  obtain ⟨prefetched, held⟩ := Shape.run_hold (shapeOf i (beginInstr i s)) (beginInstr i s)
  rw [exec_next_iff.1 hu] at prefetched held
  exact ⟨d.prefetched.trans prefetched, d.irqHeld.trans (congrArg (· &&& requests u) held)⟩

/-- A request that an instruction has run past is due whatever the schedule says (R321). -/
theorem interruptDue_held {s : State} (hp : s.prefetched = false) (h : s.irqHeld &&& requests s ≠ 0) (hold : Bool) :
    interruptDue hold s = true := by
  have requested : irq s = true := (irq_iff_requests s).2 fun none => h (by rw [none]; exact BitVec.and_zero)
  unfold interruptDue
  rw [requested, hp, beq_false_of_ne h, Bool.and_false]
  rfl

/-- A request that no instruction has run past may wait (R321). -/
theorem interruptDue_may_wait {s : State} (h : s.irqHeld &&& requests s = 0) : interruptDue true s = false := by
  simp [interruptDue, h]

/-- Settles O42: `hold` lets the instruction run, after which `finishStep_held` says what has been run past. -/
theorem pendingInterruptWaitsForOneInstruction : Obligations.PendingInterruptWaitsForOneInstruction := by
  intro s rest i w he hs hheld hpc hw hd
  have run : step s = runInstr i { s with env := rest } := by
    rw [step, he]
    exact cpuStep_run (s := { s with env := rest }) hs (interruptDue_may_wait hheld) (fetch_decoded hpc hw hd)
  refine ⟨run, fun u hu => ?_⟩
  obtain ⟨prefetched, held⟩ := finishStep_held hu
  refine ⟨?_, fun stands awake hold => ?_, fun none => ?_⟩
  · rw [run, runInstr, hu]
  · exact cpuStep_takes awake (interruptDue_held prefetched (by rw [held]; exact stands) hold)
  · refine interruptDue_may_wait ?_
    rw [held]
    exact (congrArg (· &&& _) none).trans BitVec.zero_and

/-! ## Sleep and wake-up -/

/-- Settles O43: the core sleeps on or wakes by `sleepStep`; the instruction after SLEEP then runs before any interrupt. -/
theorem sleepingCoreAndWakeUp : Obligations.SleepingCoreAndWakeUp := by
  intro s he hs
  have sleeps : step s = .next (sleepStep s) := by
    rw [step_idle he, cpuStep, if_pos hs]
  refine ⟨fun hw => ?_, fun hw => ⟨?_, fun i w hpc hf hd => ?_⟩⟩
  · rw [sleeps, sleepStep, if_neg (Bool.eq_false_iff.1 hw)]
  · rw [sleeps, sleepStep, if_pos hw]
  · exact (step_idle (s := { s with sleeping := false, prefetched := true }) he).trans
      (cpuStep_run rfl (interruptDue_eq_false false (.inr rfl)) (fetch_decoded hpc hf hd))

end Sys2Proof.Machine
end

section
/-! Proofs of the statements about the timers and CCP1 (60_exceptions.md sections 4 to 7): what an instruction cycle does to each
of them, as one lemma for each device's cycle and the frame of the others' cycles. -/

namespace Sys2Proof.Machine

/-! ## An instruction cycle, device by device -/

/-- The state in which the devices count: the EEPROM's cycle count has moved on. -/
def cycleBegun (s : State) : State := { s with ee := eeCycle s.ee }

theorem tick_awake {s : State} (h : s.sleeping = false) :
    tick s = txCycle (t2Cycle (t1Cycle (t0Cycle (cycleBegun s)))) :=
  if_neg (Bool.eq_false_iff.1 h)

theorem tick_asleep {s : State} (h : s.sleeping = true) : tick s = cycleBegun s := if_pos h

theorem tickN_succ (n : Nat) (s : State) : tickN (n + 1) s = tick (tickN n s) := by
  induction n generalizing s with
  | zero => rfl
  | succ n ih => exact ih (tick s)

theorem tick_sleeping (s : State) : (tick s).sleeping = s.sleeping := (tick_devices s).sleeping

/-- `t` differs from `s` in Timer0, INTCON and the draws alone. -/
def Timer0Only (s t : State) : Prop := t = { s with t0 := t.t0, intcon := t.intcon, freeIx := t.freeIx }

theorem Timer0Only.trans {s t u : State} (h : Timer0Only s t) (k : Timer0Only t u) : Timer0Only s u := by
  unfold Timer0Only at *
  rw [k, h]

theorem Timer0Only.timer (s : State) (a : Timer0) : Timer0Only s { s with t0 := a } := rfl

theorem tmr0Tick_only (s : State) : Timer0Only s (tmr0Tick s) :=
  (tmr0Tick_eq s).trans (by rw [tmr0Tick_eq s])

theorem t0Clock_only (s : State) : Timer0Only s (t0Clock s) := by
  unfold t0Clock
  dsimp only
  split
  · exact tmr0Tick_only s
  · split
    · exact (Timer0Only.timer s _).trans (tmr0Tick_only _)
    · exact .timer s _

/-- Everything an instruction cycle of Timer0 can do. -/
theorem t0Cycle_only (s : State) : Timer0Only s (t0Cycle s) := by
  unfold t0Cycle
  repeat' split
  · rfl
  · exact .timer s _
  · rfl
  · exact t0Clock_only s

/-- `t` differs from `s` in Timer1's count and prescaler, the CCP1 output, the flags TMR1IF and CCP1IF of PIR1 and the draws
alone. -/
structure Timer1Only (s t : State) : Prop where
  frame :
    t = { s with
      t1 := { t.t1 with con := s.t1.con, armed := s.t1.armed }
      ccp := { s.ccp with out := t.ccp.out }
      pir1 := t.pir1
      freeIx := t.freeIx }
  flags : ∀ j < 8, j ≠ 0 → j ≠ 2 → t.pir1.getLsbD j = s.pir1.getLsbD j
  ccp : s.pwm = true → t.ccp = s.ccp

theorem Timer1Only.refl (s : State) : Timer1Only s s := ⟨rfl, fun _ _ _ _ => rfl, fun _ => rfl⟩

theorem Timer1Only.con {s t : State} (h : Timer1Only s t) : t.ccp.con = s.ccp.con :=
  congrArg (·.ccp.con) h.frame

theorem Timer1Only.trans {s t u : State} (h : Timer1Only s t) (k : Timer1Only t u) : Timer1Only s u where
  frame := by
    have hf := h.frame
    have kf := k.frame
    rw [kf, hf]
  flags j hj h0 h2 := (k.flags j hj h0 h2).trans (h.flags j hj h0 h2)
  ccp hp := (k.ccp (by rw [State.pwm, h.con]; exact hp)).trans (h.ccp hp)

theorem Timer1Only.count (s : State) (lo hi : Byte) (n : Nat) :
    Timer1Only s { s with t1 := { s.t1 with lo := lo, hi := hi, pre := n } } :=
  ⟨rfl, fun _ _ _ _ => rfl, fun _ => rfl⟩

theorem Timer1Only.output {s : State} (h : s.pwm = false) (b : Bool) :
    Timer1Only s { s with ccp := { s.ccp with out := b } } :=
  ⟨rfl, fun _ _ _ _ => rfl, fun k => absurd (h.symm.trans k) (by decide)⟩

theorem Timer1Only.spend (s : State) : Timer1Only s s.spend := ⟨rfl, fun _ _ _ _ => rfl, fun _ => rfl⟩

theorem Timer1Only.raise (s : State) {m : Byte} (h : ∀ j < 8, j ≠ 0 → j ≠ 2 → m.getLsbD j = false) :
    Timer1Only s (raisePir1 m s) :=
  ⟨(raisePir1_eq m s).trans (by rw [raisePir1_eq m s]), fun j hj h0 h2 => raisePir1_getLsbD (h j hj h0 h2) s,
    fun _ => raisePir1_ccp m s⟩

theorem not_pwm_of_mode {s : State} (h : s.ccpMode < 12) : s.pwm = false :=
  Bool.eq_false_iff.2 fun k => absurd ((pwm_iff s).1 k) (Nat.not_le.2 h)

theorem compareMatch_only (s : State) : Timer1Only s (compareMatch s) := by
  have raised : Timer1Only s (raisePir1 ccp1if s) := .raise s (by decide)
  have output (h : s.ccpMode < 12) (b : Bool) := raised.trans (.output (b := b) (s := raisePir1 ccp1if s)
    (by rw [State.pwm, raisePir1_ccp]; exact not_pwm_of_mode h))
  unfold compareMatch
  dsimp only
  repeat' split
  next h => exact output (by omega) true
  next h => exact output (by omega) false
  next => exact raised

theorem t1Advance_only (s : State) : Timer1Only s (t1Advance s) := by
  have counted : Timer1Only s (setTmr1 (tmr1 s + 1) s) := .count s _ _ _
  unfold t1Advance
  dsimp only
  split
  · exact counted.trans (.raise _ (by decide))
  · exact counted

theorem t1Compare_only (s : State) : Timer1Only s (t1Compare s) := by
  unfold t1Compare
  repeat' split
  · exact (Timer1Only.spend s).trans (compareMatch_only _)
  · exact .spend s
  · exact compareMatch_only s
  · exact .refl s

theorem t1Count_only (s : State) : Timer1Only s (t1Count s) := (t1Advance_only s).trans (t1Compare_only _)

theorem specialEvent_only (s : State) : Timer1Only s (specialEvent s) :=
  (Timer1Only.raise s (by decide)).trans (.count _ _ _ _)

theorem t1Inc_only (s : State) : Timer1Only s (t1Inc s) := by
  unfold t1Inc
  repeat' split
  · exact (Timer1Only.spend s).trans (specialEvent_only _)
  · exact (Timer1Only.spend s).trans (t1Count_only _)
  · exact specialEvent_only s
  · exact t1Count_only s

theorem t1Clock_only (s : State) : Timer1Only s (t1Clock s) := by
  unfold t1Clock
  split
  · exact (Timer1Only.count s s.t1.lo s.t1.hi 0).trans (t1Inc_only _)
  · exact .count s s.t1.lo s.t1.hi _

/-- Everything an instruction cycle of Timer1 can do. -/
theorem t1Cycle_only (s : State) : Timer1Only s (t1Cycle s) := by
  unfold t1Cycle
  split
  · exact t1Clock_only s
  · exact .refl s

/-- `t` differs from `s` in Timer2's counts, what PWM mode moves of CCP1, the flag TMR2IF of PIR1 and the draws alone. -/
structure Timer2Only (s t : State) : Prop where
  frame :
    t = { s with
      t2 := { t.t2 with con := s.t2.con, pr := s.t2.pr }
      ccp := { t.ccp with con := s.ccp.con, lo := s.ccp.lo, pre := s.ccp.pre }
      pir1 := t.pir1
      freeIx := t.freeIx }
  flags : ∀ j < 8, j ≠ 1 → t.pir1.getLsbD j = s.pir1.getLsbD j
  ccp : s.pwm = false → t.ccp = s.ccp

theorem Timer2Only.refl (s : State) : Timer2Only s s := ⟨rfl, fun _ _ _ => rfl, fun _ => rfl⟩

theorem Timer2Only.con {s t : State} (h : Timer2Only s t) : t.ccp.con = s.ccp.con :=
  congrArg (·.ccp.con) h.frame

theorem Timer2Only.trans {s t u : State} (h : Timer2Only s t) (k : Timer2Only t u) : Timer2Only s u where
  frame := by
    have hf := h.frame
    have kf := k.frame
    rw [kf, hf]
  flags j hj h1 := (k.flags j hj h1).trans (h.flags j hj h1)
  ccp hp := (k.ccp (by rw [State.pwm, h.con]; exact hp)).trans (h.ccp hp)

theorem Timer2Only.count (s : State) (v : Byte) (n m : Nat) :
    Timer2Only s { s with t2 := { s.t2 with tmr := v, pre := n, post := m } } := ⟨rfl, fun _ _ _ => rfl, fun _ => rfl⟩

theorem Timer2Only.output {s : State} (h : s.pwm = true) (hi : Byte) (latch : BitVec 2) (b : Bool) :
    Timer2Only s { s with ccp := { s.ccp with hi := hi, latch := latch, out := b } } :=
  ⟨rfl, fun _ _ _ => rfl, fun k => absurd (h.symm.trans k) (by decide)⟩

theorem Timer2Only.raise (s : State) {m : Byte} (h : ∀ j < 8, j ≠ 1 → m.getLsbD j = false) :
    Timer2Only s (raisePir1 m s) :=
  ⟨(raisePir1_eq m s).trans (by rw [raisePir1_eq m s]), fun j hj h1 => raisePir1_getLsbD (h j hj h1) s,
    fun _ => raisePir1_ccp m s⟩

theorem pwmPeriodStart_only (s : State) : Timer2Only s (pwmPeriodStart s) := by
  unfold pwmPeriodStart
  split
  next h => exact .output h _ _ _
  next => exact .refl s

theorem pwmCompare_only (s : State) : Timer2Only s (pwmCompare s) := by
  unfold pwmCompare
  split
  next h => exact .output (Bool.and_eq_true_iff.1 (Bool.and_eq_true_iff.1 h).1).1 _ _ _
  next => exact .refl s

theorem pwmCompareQ_only (s : State) : Timer2Only s (pwmCompareQ s) := by
  unfold pwmCompareQ
  split
  next h => exact .output (Bool.and_eq_true_iff.1 (Bool.and_eq_true_iff.1 h).1).1 _ _ _
  next => exact .refl s

theorem t2Match_only (s : State) : Timer2Only s (t2Match s) := by
  have started : Timer2Only s (pwmPeriodStart { s with t2 := { s.t2 with tmr := 0 } }) :=
    (Timer2Only.count s 0 s.t2.pre s.t2.post).trans (pwmPeriodStart_only _)
  unfold t2Match
  dsimp only
  split
  · exact (started.trans (.count _ _ _ _)).trans (.raise _ (by decide))
  · exact started.trans (.count _ _ _ _)

theorem t2Clock_only (s : State) : Timer2Only s (t2Clock s) := by
  unfold t2Clock t2Inc
  repeat' split
  · exact (Timer2Only.count s s.t2.tmr 0 s.t2.post).trans (t2Match_only _)
  · exact .count s _ _ _
  · exact .count s _ _ _

/-- Everything an instruction cycle of Timer2 can do. -/
theorem t2Cycle_only (s : State) : Timer2Only s (t2Cycle s) := by
  unfold t2Cycle
  dsimp only
  refine Timer2Only.trans ?_ (pwmCompare_only _)
  split
  · exact (pwmCompareQ_only s).trans (t2Clock_only _)
  · exact pwmCompareQ_only s

/-- The transmitter's cycle moves TXIF alone of PIR1. -/
theorem txCycle_pir1 (s : State) {j : Nat} (h : j ≠ 4) : (txCycle s).pir1.getLsbD j = s.pir1.getLsbD j :=
  (setBit_getLsbD (by decide) _ _).trans (if_neg h)

/-- The state in which Timer1 counts. -/
def timer1Begun (s : State) : State := t0Cycle (cycleBegun s)

/-- The state in which Timer2 counts. -/
def timer2Begun (s : State) : State := t1Cycle (timer1Begun s)

@[simp] theorem timer1Begun_t1 (s : State) : (timer1Begun s).t1 = s.t1 := congrArg (·.t1) (t0Cycle_only _)
@[simp] theorem timer1Begun_t2 (s : State) : (timer1Begun s).t2 = s.t2 := congrArg (·.t2) (t0Cycle_only _)
@[simp] theorem timer1Begun_ccp (s : State) : (timer1Begun s).ccp = s.ccp := congrArg (·.ccp) (t0Cycle_only _)
@[simp] theorem timer1Begun_pir1 (s : State) : (timer1Begun s).pir1 = s.pir1 := congrArg (·.pir1) (t0Cycle_only _)
@[simp] theorem timer1Begun_rmw (s : State) : (timer1Begun s).rmw = s.rmw := congrArg (·.rmw) (t0Cycle_only _)

@[simp] theorem timer2Begun_t2 (s : State) : (timer2Begun s).t2 = s.t2 :=
  (congrArg (·.t2) (t1Cycle_only _).frame).trans (timer1Begun_t2 s)

@[simp] theorem timer2Begun_rmw (s : State) : (timer2Begun s).rmw = s.rmw :=
  (congrArg (·.rmw) (t1Cycle_only _).frame).trans (timer1Begun_rmw s)

theorem timer2Begun_ccp (s : State) : (timer2Begun s).ccp = { s.ccp with out := (timer2Begun s).ccp.out } :=
  (congrArg (·.ccp) (t1Cycle_only _).frame).trans (by rw [timer1Begun_ccp]; rfl)

/-- In PWM mode Timer1 leaves CCP1. -/
theorem timer2Begun_ccp_of_pwm {s : State} (h : s.pwm = true) : (timer2Begun s).ccp = s.ccp :=
  ((t1Cycle_only _).ccp (by rw [State.pwm, timer1Begun_ccp]; exact h)).trans (timer1Begun_ccp s)

theorem tick_begun {s : State} (h : s.sleeping = false) : tick s = txCycle (t2Cycle (timer2Begun s)) := tick_awake h

theorem tick_t0 {s : State} (h : s.sleeping = false) : (tick s).t0 = (t0Cycle (cycleBegun s)).t0 := by
  rw [tick_begun h]
  exact (congrArg (·.t0) (t2Cycle_only _).frame).trans (congrArg (·.t0) (t1Cycle_only _).frame)

theorem tick_intcon {s : State} (h : s.sleeping = false) : (tick s).intcon = (t0Cycle (cycleBegun s)).intcon := by
  rw [tick_begun h]
  exact (congrArg (·.intcon) (t2Cycle_only _).frame).trans (congrArg (·.intcon) (t1Cycle_only _).frame)

theorem tick_t1 {s : State} (h : s.sleeping = false) : (tick s).t1 = (timer2Begun s).t1 := by
  rw [tick_begun h]
  exact congrArg (·.t1) (t2Cycle_only _).frame

theorem tick_t2 {s : State} (h : s.sleeping = false) : (tick s).t2 = (t2Cycle (timer2Begun s)).t2 := by
  rw [tick_begun h]
  rfl

theorem tick_ccp {s : State} (h : s.sleeping = false) : (tick s).ccp = (t2Cycle (timer2Begun s)).ccp := by
  rw [tick_begun h]
  rfl

/-- The flags of PIR1 that Timer2 and the transmitter leave are as Timer1's cycle leaves them. -/
theorem tick_pir1_timer1 {s : State} (h : s.sleeping = false) {j : Nat} (hj : j < 8) (h1 : j ≠ 1) (h4 : j ≠ 4) :
    (tick s).pir1.getLsbD j = (timer2Begun s).pir1.getLsbD j := by
  rw [tick_begun h]
  exact (txCycle_pir1 _ h4).trans ((t2Cycle_only _).flags j hj h1)

/-- TMR2IF is as Timer2's cycle leaves it. -/
theorem tick_pir1_timer2 {s : State} (h : s.sleeping = false) :
    (tick s).pir1.getLsbD 1 = (t2Cycle (timer2Begun s)).pir1.getLsbD 1 := by
  rw [tick_begun h]
  exact txCycle_pir1 _ (by decide)

theorem timer2Begun_tmr2if (s : State) : (timer2Begun s).pir1.getLsbD 1 = s.pir1.getLsbD 1 :=
  ((t1Cycle_only _).flags 1 (by decide) (by decide) (by decide)).trans (by rw [timer1Begun_pir1])

/-- Outside PWM mode Timer2 leaves CCP1. -/
theorem tick_ccp_of_not_pwm {s : State} (h : s.sleeping = false) (hp : s.pwm = false) :
    (tick s).ccp = (timer2Begun s).ccp := by
  rw [tick_ccp h]
  exact (t2Cycle_only _).ccp (by rw [State.pwm, timer2Begun_ccp]; exact hp)

/-! ## Timer0 -/

/-- The cycle in which Timer0 is incremented: each one, or with the prescaler each one at a multiple of the prescale (R341). -/
abbrev t0Counts (s : State) : Prop := s.psa = true ∨ (s.t0.prescaler + 1).toNat % 2 ^ (s.ps + 1) = 0

/-- A clock of Timer0: the increment through the prescaler (R341, R343). -/
theorem t0Clock_t0 (s : State) :
    (t0Clock s).t0.tmr0 = (if t0Counts s then s.t0.tmr0 + 1 else s.t0.tmr0) ∧
      (t0Clock s).t0.prescaler = (if s.psa then s.t0.prescaler else s.t0.prescaler + 1) := by
  unfold t0Clock t0Counts
  dsimp only
  by_cases hp : s.psa = true
  · rw [if_pos hp, if_pos (.inl hp), if_pos hp, tmr0Tick_eq]
    exact ⟨rfl, rfl⟩
  · rw [if_neg hp, if_neg hp]
    by_cases hc : (s.t0.prescaler + 1).toNat % 2 ^ (s.ps + 1) = 0
    · rw [if_pos hc, if_pos (.inr hc), tmr0Tick_eq]
      exact ⟨rfl, rfl⟩
    · rw [if_neg hc, if_neg (not_or.2 ⟨hp, hc⟩)]
      exact ⟨rfl, rfl⟩

/-- An increment sets T0IF exactly at the overflow from FFh, outside the race (R344). -/
theorem tmr0Tick_t0if {s : State} (h : s.rmw ≠ .intcon) :
    (tmr0Tick s).intcon.getLsbD 2 = true ↔ s.intcon.getLsbD 2 = true ∨ s.t0.tmr0 = 0xFF := by
  obtain ⟨unchanged, overflows⟩ := tmr0Tick_intcon s
  by_cases top : s.t0.tmr0 = 0xFF
  · rw [overflows top h, BitVec.getLsbD_or]
    exact iff_of_true (Bool.or_true _) (.inr top)
  · rw [unchanged.resolve_right fun k => top k.1]
    exact (or_iff_left top).symm

theorem t0Clock_t0if {s : State} (h : s.rmw ≠ .intcon) :
    (t0Clock s).intcon.getLsbD 2 = true ↔ s.intcon.getLsbD 2 = true ∨ (t0Counts s ∧ s.t0.tmr0 = 0xFF) := by
  unfold t0Clock t0Counts
  dsimp only
  by_cases hp : s.psa = true
  · rw [if_pos hp, tmr0Tick_t0if h]
    simp only [hp, true_or, true_and]
  · rw [if_neg hp]
    by_cases hc : (s.t0.prescaler + 1).toNat % 2 ^ (s.ps + 1) = 0
    · rw [if_pos hc, tmr0Tick_t0if (by exact h)]
      simp only [hc, or_true, true_and]
    · rw [if_neg hc]
      simp only [hp, hc, or_self, false_and, or_false, Bool.false_eq_true]

/-- A cycle in timer mode, no inhibit running, is a clock (R341). -/
theorem t0Cycle_counting {s : State} (hw : s.t0.wrote = false) (hi : s.t0.inhibit = 0) (hc : s.t0cs = false) :
    t0Cycle s = t0Clock s := by
  rw [t0Cycle, if_neg (Bool.eq_false_iff.1 hw), if_neg (not_not_intro hi), if_neg (Bool.eq_false_iff.1 hc)]

/-- Settles O45: awake a cycle is `t0Clock`; asleep it moves the EEPROM's count alone. -/
theorem timer0InstructionCycle : Obligations.Timer0InstructionCycle := by
  constructor
  · intro s hs hc hw hi p counts
    have cycle : t0Cycle (cycleBegun s) = t0Clock (cycleBegun s) := t0Cycle_counting hw hi hc
    obtain ⟨tmr0, prescaler⟩ := t0Clock_t0 (cycleBegun s)
    rw [tick_t0 hs, tick_intcon hs, cycle]
    exact ⟨fun h => tmr0.trans (if_pos h), fun h => tmr0.trans (if_neg h), prescaler,
      fun h => t0Clock_t0if (s := cycleBegun s) h⟩
  · intro s hs
    rw [tick_asleep hs]
    exact ⟨rfl, rfl, rfl, rfl, rfl⟩

/-! ## The write inhibit of Timer0 -/

@[simp] theorem finishSkip_sleeping (p t : Bool) (s : State) : (finishSkip p t s).sleeping = s.sleeping := by
  cases p <;> cases t <;> rfl

/-- Storing TMR0 leaves Timer0 as a write of some byte does, and OPTION and the sleeping flag as they were (R113). -/
theorem Shape.run_store_tmr0 {p : Shape} {s : State} (h : p.storeReg s = some .tmr0) :
    ∃ v, (p.run s).t0 = (writeTmr0 v s).t0 ∧ (p.run s).option = s.option ∧ (p.run s).sleeping = s.sleeping := by
  cases p with
  | file f d fn =>
    cases d with
    | toW => cases h
    | toF =>
      have tmr0 : operandReg f s = .tmr0 := Option.some.inj h
      refine ⟨(fn (readValue .tmr0 s)).value, ?_⟩
      rw [Shape.run, fileOp, fileEffect, tmr0]
      exact ⟨putFlags_t0 _ _ _, putFlags_option _ _ _, putFlags_sleeping _ _ _⟩
  | skip f d fn =>
    cases d with
    | toW => cases h
    | toF =>
      have tmr0 : operandReg f s = .tmr0 := Option.some.inj h
      refine ⟨fn (readValue .tmr0 s), ?_⟩
      simp only [Shape.run, fileSkip, fileEffect, tmr0, finishSkip_t0]
      exact ⟨rfl, (finishSkip_kept _ _ _).option, finishSkip_sleeping _ _ _⟩
  | clear f =>
    have tmr0 : operandReg f s = .tmr0 := Option.some.inj h
    refine ⟨0x00, ?_⟩
    rw [Shape.run, clearFile, fileWrite, tmr0]
    exact ⟨rfl, rfl, rfl⟩
  | store f =>
    have tmr0 : operandReg f s = .tmr0 := Option.some.inj h
    refine ⟨s.w, ?_⟩
    rw [Shape.run, fileWrite, tmr0]
    exact ⟨rfl, rfl, rfl⟩
  | option | test | literal | nop | call | goto | ret | retlw | retfie | clrwdt | sleep => cases h

/-- In the cycles of the instruction that wrote TMR0 Timer0 stands (D16; log 20). -/
theorem tickN_t0_of_wrote {s : State} (hs : s.sleeping = false) (hw : s.t0.wrote = true) (n : Nat) :
    (tickN n s).t0 = s.t0 := by
  induction n with
  | zero => rfl
  | succ n ih =>
    have awake : (tickN n s).sleeping = false := (tickN_devices n s).sleeping.trans hs
    have wrote : (cycleBegun (tickN n s)).t0.wrote = true := (congrArg (·.wrote) ih).trans hw
    rw [tickN_succ, tick_t0 awake, t0Cycle, if_pos wrote]
    exact ih

/-- An inhibited cycle takes one off the inhibit and does nothing else to Timer0 (R346). -/
theorem tick_t0_of_inhibit {s : State} (hs : s.sleeping = false) (hw : s.t0.wrote = false) (hi : s.t0.inhibit ≠ 0) :
    (tick s).t0 = { s.t0 with inhibit := s.t0.inhibit - 1 } := by
  have wrote : (cycleBegun s).t0.wrote = false := hw
  have inhibit : (cycleBegun s).t0.inhibit ≠ 0 := hi
  rw [tick_t0 hs, t0Cycle, if_neg (Bool.eq_false_iff.1 wrote), if_pos inhibit]
  rfl

/-- A cycle without inhibit counts in timer mode (R341). -/
theorem tick_t0_counting {s : State} (hs : s.sleeping = false) (hw : s.t0.wrote = false) (hi : s.t0.inhibit = 0)
    (hc : s.t0cs = false) : (tick s).t0 = (t0Clock (cycleBegun s)).t0 := by
  rw [tick_t0 hs]
  exact congrArg (·.t0) (t0Cycle_counting (s := cycleBegun s) hw hi hc)

/-- Timer0 in the three cycles that follow an instruction that wrote TMR0: two are inhibited, the third counts (R346). -/
theorem tickN_t0_after_write {s : State} (hs : s.sleeping = false) (hc : s.t0cs = false) (hw : s.t0.wrote = false)
    (hi : s.t0.inhibit = 2) :
    (tickN 1 s).t0 = { s.t0 with inhibit := 1 } ∧ (tickN 2 s).t0 = { s.t0 with inhibit := 0 } ∧
      (s.psa = true → (tickN 3 s).t0.tmr0 = s.t0.tmr0 + 1) ∧
      (s.psa = false → s.t0.prescaler = 0 → (tickN 3 s).t0.prescaler = 1) := by
  have d (n : Nat) := tickN_devices n s
  have first : (tickN 1 s).t0 = { s.t0 with inhibit := 1 } := by
    rw [tickN, tickN, tick_t0_of_inhibit hs hw (by rw [hi]; decide), hi]
  have second : (tickN 2 s).t0 = { s.t0 with inhibit := 0 } := by
    rw [tickN_succ, tick_t0_of_inhibit ((d 1).sleeping.trans hs) (by rw [first]; exact hw)
      (by rw [first]; exact Nat.one_ne_zero), first]
    rfl
  have third : (tickN 3 s).t0 = (t0Clock (cycleBegun (tickN 2 s))).t0 := by
    rw [tickN_succ]
    exact tick_t0_counting ((d 2).sleeping.trans hs) (by rw [second]; exact hw) (by rw [second])
      (by rw [State.t0cs, (d 2).option]; exact hc)
  obtain ⟨tmr0, prescaler⟩ := t0Clock_t0 (cycleBegun (tickN 2 s))
  have psa : (cycleBegun (tickN 2 s)).psa = s.psa := congrArg (·.getLsbD 3) (d 2).option
  refine ⟨first, second, fun ha => ?_, fun ha hp => ?_⟩
  · rw [third, tmr0, if_pos (.inl (psa.trans ha))]
    exact congrArg (·.tmr0 + 1) second
  · rw [third, prescaler, if_neg (Bool.eq_false_iff.1 (psa.trans ha))]
    exact (congrArg (·.prescaler + 1) second).trans (congrArg (· + 1) hp)

/-- MOVWF writes W (R213). -/
theorem movwf_tmr0 {f : BitVec 7} {s : State} (h : operandReg f s = .tmr0) :
    ((shapeOf (.movwf f) s).run s).t0.tmr0 = s.w := by
  rw [shapeOf, Shape.run, fileWrite, h]
  rfl

/-- Settles O46: `Shape.run_store_tmr0` for the store, then no cycle of the writing instruction counts, and
`tickN_t0_after_write`. -/
theorem timer0WriteInhibit : Obligations.Timer0WriteInhibit := by
  intro i s hr hs hc
  obtain ⟨v, t0, option, sleeping⟩ := Shape.run_store_tmr0 (storeReg_eq_shape i s ▸ hr)
  refine ⟨_, exec_eq_run i s, ?_, ?_⟩
  · rintro f rfl
    exact movwf_tmr0 (Option.some.inj hr)
  · generalize (shapeOf i s).run s = t at t0 option sleeping ⊢
    intro u
    have d := tickN_devices t.cycles t
    have stands : (tickN t.cycles t).t0 = t.t0 := tickN_t0_of_wrote (sleeping.trans hs) (by rw [t0]; rfl) t.cycles
    have opt : u.option = s.option := d.option.trans option
    have ut0 : u.t0 = { t.t0 with wrote := false } := congrArg (fun a : Timer0 => { a with wrote := false }) stands
    obtain ⟨first, second, direct, prescaled⟩ := tickN_t0_after_write (s := u) (d.sleeping.trans (sleeping.trans hs))
      (by rw [State.t0cs, opt]; exact hc) (by rw [ut0]) (by rw [ut0, t0]; rfl)
    rw [first, second, ut0]
    rw [State.psa, opt, ut0] at direct prescaled
    refine ⟨rfl, rfl, rfl, direct, fun ha => ?_⟩
    have cleared : t.t0.prescaler = 0 := by
      rw [t0]
      exact if_neg (Bool.eq_false_iff.1 ha)
    exact ⟨cleared, cleared, prescaled ha cleared⟩

end Sys2Proof.Machine
end

section
/-! Proofs of the statements about Timer1 with CCP1's compare modes (60_exceptions.md sections 5 and 7): an increment, the match
it may make, and the period that the special event trigger gives Timer1. -/

namespace Sys2Proof.Machine

/-! ## An increment of Timer1 -/

/-- Timer1's count is that of its two bytes alone. -/
theorem tmr1_congr {s t : State} (h : t.t1 = s.t1) : tmr1 t = tmr1 s := by rw [tmr1, tmr1, h]

theorem tmr1_setTmr1 (v : BitVec 16) (s : State) : tmr1 (setTmr1 v s) = v := by
  show v.extractLsb' 8 8 ++ v.extractLsb' 0 8 = v
  ext i hi
  rw [BitVec.getElem_append]
  split
  · rw [BitVec.getElem_extractLsb', Nat.zero_add, BitVec.getLsbD_eq_getElem]
  · rw [BitVec.getElem_extractLsb', Nat.add_sub_cancel' (by omega), BitVec.getLsbD_eq_getElem]

theorem add_one_eq_zero_iff_ones (v : BitVec 16) : v + 1 = 0 ↔ v = 0xFFFF := by bv_omega

/-- The count moves by one whatever becomes of the flag (R351). -/
theorem t1Advance_t1 (s : State) : (t1Advance s).t1 = (setTmr1 (tmr1 s + 1) s).t1 := by
  unfold t1Advance
  dsimp only
  split
  · exact raisePir1_t1 _ _
  · rfl

theorem t1Advance_ccp (s : State) : (t1Advance s).ccp = s.ccp := by
  unfold t1Advance
  dsimp only
  split
  · exact raisePir1_ccp _ _
  · rfl

theorem t1Advance_rmw (s : State) : (t1Advance s).rmw = s.rmw := (t1Advance_devices s).rmw

theorem t1Advance_ccp1if (s : State) : (t1Advance s).pir1.getLsbD 2 = s.pir1.getLsbD 2 := by
  unfold t1Advance
  dsimp only
  split
  · exact raisePir1_getLsbD rfl _
  · rfl

/-- The roll-over sets TMR1IF, outside the race (R353). -/
theorem t1Advance_tmr1if {s : State} (h : s.rmw ≠ .pir1) :
    (t1Advance s).pir1.getLsbD 0 = true ↔ s.pir1.getLsbD 0 = true ∨ tmr1 s = 0xFFFF := by
  unfold t1Advance
  dsimp only
  rw [← add_one_eq_zero_iff_ones]
  split
  next top => exact iff_of_true (raisePir1_sets (s := setTmr1 _ s) h rfl) (.inr top)
  next below => exact (or_iff_left below).symm

theorem compareMatch_t1 (s : State) : (compareMatch s).t1 = s.t1 := by
  unfold compareMatch
  dsimp only
  repeat' split
  all_goals exact raisePir1_t1 _ _

theorem compareMatch_pir1 (s : State) : (compareMatch s).pir1 = (raisePir1 ccp1if s).pir1 := by
  unfold compareMatch
  dsimp only
  repeat' split
  all_goals rfl

/-- The CCP1 output after a match: set, cleared or left alone, as the mode says (R360, R361). -/
def outAfterMatch (mode : Nat) (out : Bool) : Bool :=
  if mode = 0b1000 then true else if mode = 0b1001 then false else out

theorem compareMatch_out (s : State) : (compareMatch s).ccp.out = outAfterMatch s.ccpMode s.ccp.out := by
  unfold compareMatch outAfterMatch
  dsimp only
  repeat' split
  · rfl
  · rfl
  · rw [raisePir1_ccp]

/-- The increment makes a compare match: one of the modes 1000 to 1010, and the new count is CCPR1 (R360; log 25). -/
abbrev t1Hits (s : State) : Prop :=
  (s.ccpMode = 0b1000 ∨ s.ccpMode = 0b1001 ∨ s.ccpMode = 0b1010) ∧ tmr1 s + 1 = ccpr1 s

/-- Out of Asynchronous Counter mode an increment that hits CCPR1 makes the match. -/
theorem t1Count_eq {s : State} (h : s.t1async = false) :
    t1Count s = if t1Hits s then compareMatch (t1Advance s) else t1Advance s := by
  have mode : (t1Advance s).ccpMode = s.ccpMode := by rw [State.ccpMode, t1Advance_ccp]
  have period : ccpr1 (t1Advance s) = ccpr1 s := by rw [ccpr1, ccpr1, t1Advance_ccp]
  have count : tmr1 (t1Advance s) = tmr1 s + 1 := (tmr1_congr (t1Advance_t1 s)).trans (tmr1_setTmr1 _ s)
  have async : (t1Advance s).t1async = false := by
    rw [State.t1async, t1Advance_t1]
    exact h
  unfold t1Count t1Compare
  rw [mode, period, count, if_neg (Bool.eq_false_iff.1 async)]

theorem t1Count_t1 {s : State} (h : s.t1async = false) : (t1Count s).t1 = (setTmr1 (tmr1 s + 1) s).t1 := by
  rw [t1Count_eq h, ← t1Advance_t1]
  split
  · exact compareMatch_t1 _
  · rfl

theorem t1Count_tmr1 {s : State} (h : s.t1async = false) : tmr1 (t1Count s) = tmr1 s + 1 :=
  (tmr1_congr (t1Count_t1 h)).trans (tmr1_setTmr1 _ s)

/-- An increment sets TMR1IF exactly at FFFFh, outside the race (R353). -/
theorem t1Count_tmr1if {s : State} (h : s.t1async = false) (hr : s.rmw ≠ .pir1) :
    (t1Count s).pir1.getLsbD 0 = true ↔ s.pir1.getLsbD 0 = true ∨ tmr1 s = 0xFFFF := by
  rw [t1Count_eq h, ← t1Advance_tmr1if hr]
  split
  · rw [compareMatch_pir1, raisePir1_getLsbD rfl]
  · rfl

/-- An increment sets CCP1IF exactly at a match, outside the race (R360). -/
theorem t1Count_ccp1if {s : State} (h : s.t1async = false) (hr : s.rmw ≠ .pir1) :
    (t1Count s).pir1.getLsbD 2 = true ↔ s.pir1.getLsbD 2 = true ∨ t1Hits s := by
  rw [t1Count_eq h]
  split
  next hit =>
    rw [compareMatch_pir1]
    exact iff_of_true (raisePir1_sets ((t1Advance_rmw s).trans_ne hr) rfl) (.inr hit)
  next miss =>
    rw [t1Advance_ccp1if]
    exact (or_iff_left miss).symm

theorem t1Count_miss {s : State} (h : s.t1async = false) (miss : ¬t1Hits s) : t1Count s = t1Advance s := by
  rw [t1Count_eq h, if_neg miss]

/-- A match moves the CCP1 output as its mode says; no other increment does (R360, R361). -/
theorem t1Count_out {s : State} (h : s.t1async = false) :
    (t1Count s).ccp.out = if t1Hits s then outAfterMatch s.ccpMode s.ccp.out else s.ccp.out := by
  rw [t1Count_eq h]
  split
  · rw [compareMatch_out, State.ccpMode, t1Advance_ccp]
  · rw [t1Advance_ccp]

/-! ## Timer1's prescaler -/

/-- The state in which Timer1's prescaler has restarted. -/
def t1Restarted (s : State) : State := { s with t1 := { s.t1 with pre := 0 } }

/-- In timer mode the clock is not asynchronous (R352). -/
theorem t1async_of_timer {s : State} (h : s.t1.con.getLsbD 1 = false) : s.t1async = false := by
  rw [State.t1async, h, Bool.false_and]

theorem t1timer_of_con {s : State} (h0 : s.t1.con.getLsbD 0 = true) (h1 : s.t1.con.getLsbD 1 = false) :
    s.t1timer = true := by
  rw [State.t1timer, h0, h1]
  rfl

theorem timer1Begun_timer {s : State} (h : s.t1timer = true) : (timer1Begun s).t1timer = true := by
  rw [State.t1timer, timer1Begun_t1]
  exact h

/-- At the prescaler's last count Timer1 is clocked (R351). -/
theorem timer2Begun_of_last {s : State} (ht : s.t1timer = true) (h : 2 ^ s.t1ckps ≤ s.t1.pre + 1) :
    timer2Begun s = t1Inc (t1Restarted (timer1Begun s)) := by
  have last : 2 ^ (timer1Begun s).t1ckps ≤ (timer1Begun s).t1.pre + 1 := by
    rw [State.t1ckps, timer1Begun_t1]
    exact h
  rw [timer2Begun, t1Cycle, if_pos (timer1Begun_timer ht), t1Clock, if_pos last]
  rfl

/-- At any other count the prescaler counts alone (R351). -/
theorem timer2Begun_of_not_last {s : State} (ht : s.t1timer = true) (h : s.t1.pre + 1 < 2 ^ s.t1ckps) :
    timer2Begun s =
      { timer1Begun s with t1 := { (timer1Begun s).t1 with pre := (timer1Begun s).t1.pre + 1 } } := by
  have more : ¬2 ^ (timer1Begun s).t1ckps ≤ (timer1Begun s).t1.pre + 1 := by
    rw [State.t1ckps, timer1Begun_t1]
    exact Nat.not_le.2 h
  rw [timer2Begun, t1Cycle, if_pos (timer1Begun_timer ht), t1Clock, if_neg more]

section
variable {s : State}

theorem t1Restarted_tmr1 : tmr1 (t1Restarted (timer1Begun s)) = tmr1 s := by
  show (timer1Begun s).t1.hi ++ (timer1Begun s).t1.lo = tmr1 s
  rw [timer1Begun_t1]
  rfl

theorem t1Restarted_ccp : (t1Restarted (timer1Begun s)).ccp = s.ccp := timer1Begun_ccp s

theorem t1Restarted_ccpMode : (t1Restarted (timer1Begun s)).ccpMode = s.ccpMode := by
  rw [State.ccpMode, t1Restarted_ccp]

theorem t1Restarted_pir1 : (t1Restarted (timer1Begun s)).pir1 = s.pir1 := timer1Begun_pir1 s

theorem t1Restarted_rmw : (t1Restarted (timer1Begun s)).rmw = s.rmw := timer1Begun_rmw s

theorem t1Restarted_async (h1 : s.t1.con.getLsbD 1 = false) : (t1Restarted (timer1Begun s)).t1async = false :=
  t1async_of_timer ((congrArg (·.con.getLsbD 1) (timer1Begun_t1 s)).trans h1)

theorem t1Hits_restarted : t1Hits (t1Restarted (timer1Begun s)) ↔ t1Hits s := by
  rw [t1Hits, t1Hits, t1Restarted_tmr1, ccpr1, ccpr1, t1Restarted_ccpMode, t1Restarted_ccp]

/-- A cycle at another count of the prescaler, in any mode: Timer1, its flags and the match stay (R351). -/
theorem tick_t1_not_last (hs : s.sleeping = false) (ht : s.t1timer = true) (h : s.t1.pre + 1 < 2 ^ s.t1ckps) :
    (tick s).t1 = { s.t1 with pre := s.t1.pre + 1 } ∧ (tick s).pir1.getLsbD 0 = s.pir1.getLsbD 0 ∧
      (tick s).pir1.getLsbD 2 = s.pir1.getLsbD 2 ∧ (s.pwm = false → (tick s).ccp = s.ccp) := by
  have begun := timer2Begun_of_not_last ht h
  refine ⟨?_, ?_, ?_, fun hp => ?_⟩
  · rw [tick_t1 hs, begun, timer1Begun_t1]
  · rw [tick_pir1_timer1 hs (by decide) (by decide) (by decide), begun]
    exact congrArg (·.getLsbD 0) (timer1Begun_pir1 s)
  · rw [tick_pir1_timer1 hs (by decide) (by decide) (by decide), begun]
    exact congrArg (·.getLsbD 2) (timer1Begun_pir1 s)
  · rw [tick_ccp_of_not_pwm hs hp, begun]
    exact timer1Begun_ccp s

/-- A cycle that increments Timer1 without a special event: the count, the prescaler, the flags and the output. -/
theorem tick_t1_counting (hs : s.sleeping = false) (h1 : s.t1.con.getLsbD 1 = false)
    (begun : timer2Begun s = t1Count (t1Restarted (timer1Begun s))) :
    tmr1 (tick s) = tmr1 s + 1 ∧ (tick s).t1.pre = 0 ∧
      (s.rmw ≠ .pir1 →
        ((tick s).pir1.getLsbD 0 = true ↔ s.pir1.getLsbD 0 = true ∨ tmr1 s = 0xFFFF) ∧
        ((tick s).pir1.getLsbD 2 = true ↔ s.pir1.getLsbD 2 = true ∨ t1Hits s)) ∧
      (s.pwm = false →
        (tick s).ccp.out = if t1Hits s then outAfterMatch s.ccpMode s.ccp.out else s.ccp.out) := by
  have async := t1Restarted_async h1
  refine ⟨?_, ?_, fun hr => ⟨?_, ?_⟩, fun hp => ?_⟩
  · rw [tmr1_congr (tick_t1 hs), begun, t1Count_tmr1 async, t1Restarted_tmr1]
  · rw [tick_t1 hs, begun, t1Count_t1 async]
    rfl
  · rw [tick_pir1_timer1 hs (by decide) (by decide) (by decide), begun,
      t1Count_tmr1if async (t1Restarted_rmw.trans_ne hr), t1Restarted_tmr1, t1Restarted_pir1]
  · rw [tick_pir1_timer1 hs (by decide) (by decide) (by decide), begun,
      t1Count_ccp1if async (t1Restarted_rmw.trans_ne hr), t1Hits_restarted, t1Restarted_pir1]
  · rw [tick_ccp_of_not_pwm hs hp, begun, t1Count_out async]
    exact if_congr t1Hits_restarted (by rw [t1Restarted_ccpMode, t1Restarted_ccp]) (by rw [t1Restarted_ccp])

end

/-- The compare modes without the special event, as a range. -/
theorem t1Hits_iff (s : State) : t1Hits s ↔ 8 ≤ s.ccpMode ∧ s.ccpMode ≤ 10 ∧ tmr1 s + 1 = ccpr1 s := by
  unfold t1Hits
  rw [← and_assoc]
  exact and_congr_left fun _ => by omega

/-- Settles O47: a cycle either increments, by `tick_t1_counting`, or counts the prescaler, by `tick_t1_not_last`. -/
theorem timer1InstructionCycle : Obligations.Timer1InstructionCycle := by
  intro s hs h0 h1 hm mode n hit
  have timer := t1timer_of_con h0 h1
  refine ⟨fun last => ?_, fun more => ?_⟩
  · have begun : timer2Begun s = t1Count (t1Restarted (timer1Begun s)) := by
      rw [timer2Begun_of_last timer (Nat.le_of_eq last.symm), t1Inc, if_neg]
      rintro ⟨special, -⟩
      exact hm (t1Restarted_ccpMode.symm.trans special)
    obtain ⟨count, pre, flags, out⟩ := tick_t1_counting hs h1 begun
    have hits : t1Hits s ↔ hit := t1Hits_iff s
    refine ⟨pre, count, fun hr => ⟨(flags hr).1, (flags hr).2.trans (or_congr_right hits)⟩, fun h m8 => ?_,
      fun h m9 => ?_, fun low h => ?_⟩
    · have m8' : s.ccpMode = 8 := m8
      rw [out (not_pwm_of_mode (by omega)), if_pos (hits.2 h), m8']
      rfl
    · have m9' : s.ccpMode = 9 := m9
      rw [out (not_pwm_of_mode (by omega)), if_pos (hits.2 h), m9']
      rfl
    · rw [out (not_pwm_of_mode low)]
      split
      next k =>
        have m10 : s.ccpMode = 10 := h.resolve_left (not_not_intro (hits.1 k))
        rw [m10]
        rfl
      next => rfl
  · obtain ⟨t1, tmr1if, ccp1if, -⟩ := tick_t1_not_last hs timer more
    refine ⟨congrArg (·.pre) t1, ?_, tmr1if, ccp1if⟩
    rw [tmr1, t1]
    rfl

/-! ## The period of the special event trigger -/

theorem tick_t1con {s : State} (hs : s.sleeping = false) : (tick s).t1.con = s.t1.con := by
  rw [tick_t1 hs]
  exact (congrArg (·.t1.con) (t1Cycle_only _).frame).trans (congrArg (·.con) (timer1Begun_t1 s))

/-- The state in which Timer1 counts up to CCPR1 under the special event trigger (R354): awake, in timer mode, in mode 1011, and
the last instruction not a read-modify-write of PIR1. -/
structure SpecialEventMode (s : State) : Prop where
  awake : s.sleeping = false
  on : s.t1.con.getLsbD 0 = true
  timer : s.t1.con.getLsbD 1 = false
  mode : s.ccpMode = 0b1011
  norace : s.rmw ≠ .pir1

section
variable {s : State} (h : SpecialEventMode s)
include h

theorem SpecialEventMode.running : s.t1timer = true := t1timer_of_con h.on h.timer

theorem SpecialEventMode.not_pwm : s.pwm = false := not_pwm_of_mode (h.mode ▸ by decide)

theorem SpecialEventMode.miss : ¬t1Hits s := fun k => by
  have := h.mode
  have := k.1
  omega

/-- An instruction cycle that leaves CCP1 leaves the mode. -/
theorem SpecialEventMode.tick (hc : (tick s).ccp = s.ccp) : SpecialEventMode (tick s) where
  awake := (tick_sleeping s).trans h.awake
  on := by rw [tick_t1con h.awake]; exact h.on
  timer := by rw [tick_t1con h.awake]; exact h.timer
  mode := by rw [State.ccpMode, hc]; exact h.mode
  norace := (tick_devices s).rmw.trans_ne h.norace

/-- At the prescaler's last count below CCPR1 Timer1 is incremented, without a match and without an overflow (R354). -/
theorem SpecialEventMode.tick_below (hp : 2 ^ s.t1ckps ≤ s.t1.pre + 1) (hc : (tmr1 s).toNat < (ccpr1 s).toNat) :
    (Machine.tick s).ccp = s.ccp ∧ (tmr1 (Machine.tick s)).toNat = (tmr1 s).toNat + 1 ∧ (Machine.tick s).t1.pre = 0 ∧
      (Machine.tick s).pir1.getLsbD 0 = s.pir1.getLsbD 0 ∧ (Machine.tick s).pir1.getLsbD 2 = s.pir1.getLsbD 2 := by
  have top := (ccpr1 s).isLt
  have below : tmr1 s ≠ 0xFFFF := fun k => by
    rw [k] at hc
    exact absurd hc (by show ¬0xFFFF < _; omega)
  have begun : timer2Begun s = t1Count (t1Restarted (timer1Begun s)) := by
    rw [timer2Begun_of_last h.running hp, t1Inc, if_neg]
    rintro ⟨-, equal⟩
    rw [t1Restarted_tmr1, ccpr1, t1Restarted_ccp] at equal
    exact absurd (congrArg BitVec.toNat equal) (Nat.ne_of_lt hc)
  obtain ⟨count, pre, flags, -⟩ := tick_t1_counting h.awake h.timer begun
  obtain ⟨tmr1if, ccp1if⟩ := flags h.norace
  refine ⟨?_, ?_, pre, Bool.eq_iff_iff.2 (tmr1if.trans (or_iff_left below)),
    Bool.eq_iff_iff.2 (ccp1if.trans (or_iff_left h.miss))⟩
  · rw [tick_ccp_of_not_pwm h.awake h.not_pwm, begun,
      t1Count_miss (t1Restarted_async h.timer) (mt t1Hits_restarted.1 h.miss), t1Advance_ccp, t1Restarted_ccp]
  · rw [count, BitVec.toNat_add]
    exact Nat.mod_eq_of_lt (by show _ + 1 < _; omega)

/-- At the prescaler's last count and at CCPR1 Timer1 starts again and CCP1IF is set, without TMR1IF (R354, R362). -/
theorem SpecialEventMode.tick_match (hp : 2 ^ s.t1ckps ≤ s.t1.pre + 1) (hc : tmr1 s = ccpr1 s) :
    (Machine.tick s).ccp = s.ccp ∧ tmr1 (Machine.tick s) = 0 ∧ (Machine.tick s).t1.pre = 0 ∧
      (Machine.tick s).pir1.getLsbD 0 = s.pir1.getLsbD 0 ∧ (Machine.tick s).pir1.getLsbD 2 = true := by
  have equal : tmr1 (t1Restarted (timer1Begun s)) = ccpr1 (t1Restarted (timer1Begun s)) := by
    rw [t1Restarted_tmr1, ccpr1, t1Restarted_ccp]
    exact hc
  have begun : timer2Begun s = specialEvent (t1Restarted (timer1Begun s)) := by
    rw [timer2Begun_of_last h.running hp, t1Inc, if_pos ⟨t1Restarted_ccpMode.trans h.mode, equal⟩,
      if_neg (Bool.eq_false_iff.1 (t1Restarted_async h.timer))]
  refine ⟨?_, ?_, ?_, ?_, ?_⟩
  · rw [tick_ccp_of_not_pwm h.awake h.not_pwm, begun]
    exact (raisePir1_ccp _ _).trans t1Restarted_ccp
  · rw [tmr1_congr (tick_t1 h.awake), begun]
    exact tmr1_setTmr1 0 _
  · rw [tick_t1 h.awake, begun]
    exact congrArg (·.pre) (raisePir1_t1 _ _)
  · rw [tick_pir1_timer1 h.awake (by decide) (by decide) (by decide), begun]
    exact (raisePir1_getLsbD rfl _).trans (congrArg (·.getLsbD 0) t1Restarted_pir1)
  · rw [tick_pir1_timer1 h.awake (by decide) (by decide) (by decide), begun]
    exact raisePir1_sets (t1Restarted_rmw.trans_ne h.norace) rfl

end

/-- `t` is `s` after `m` cycles that have not reached the end of the period: Timer1 and its prescaler count them (R351), the flags
and CCP1 are as they were. -/
structure PeriodRuns (s t : State) (m : Nat) : Prop where
  mode : SpecialEventMode t
  con : t.t1.con = s.t1.con
  ccp : t.ccp = s.ccp
  count : (tmr1 t).toNat = m / 2 ^ s.t1ckps
  pre : t.t1.pre = m % 2 ^ s.t1ckps
  tmr1if : t.pir1.getLsbD 0 = s.pir1.getLsbD 0
  ccp1if : t.pir1.getLsbD 2 = s.pir1.getLsbD 2

/-- The quotient and the remainder of the next number. -/
theorem succ_div_mod {p : Nat} (hp : 0 < p) (m : Nat) :
    (m % p + 1 < p → (m + 1) / p = m / p ∧ (m + 1) % p = m % p + 1) ∧
      (m % p + 1 = p → (m + 1) / p = m / p + 1 ∧ (m + 1) % p = 0) := by
  have split := Nat.mod_add_div m p
  refine ⟨fun h => (Nat.div_mod_unique hp).2 ⟨by omega, h⟩, fun h => (Nat.div_mod_unique hp).2 ⟨?_, hp⟩⟩
  rw [Nat.mul_succ]
  omega

theorem PeriodRuns.prescale {s t : State} {m : Nat} (h : PeriodRuns s t m) : t.t1ckps = s.t1ckps := by
  rw [State.t1ckps, h.con]

theorem PeriodRuns.period {s t : State} {m : Nat} (h : PeriodRuns s t m) : ccpr1 t = ccpr1 s := by
  rw [ccpr1, ccpr1, h.ccp]

/-- One more cycle before the last of the period. -/
theorem PeriodRuns.tick {s t : State} {m : Nat} (h : PeriodRuns s t m)
    (hm : m + 1 < ((ccpr1 s).toNat + 1) * 2 ^ s.t1ckps) : PeriodRuns s (tick t) (m + 1) := by
  have positive : 0 < 2 ^ s.t1ckps := Nat.two_pow_pos _
  have con := (tick_t1con h.mode.awake).trans h.con
  obtain ⟨inside, last⟩ := succ_div_mod positive m
  obtain less | full : m % 2 ^ s.t1ckps + 1 < 2 ^ s.t1ckps ∨ m % 2 ^ s.t1ckps + 1 = 2 ^ s.t1ckps := by
    have := Nat.mod_lt m positive
    omega
  · obtain ⟨div, mod⟩ := inside less
    obtain ⟨t1, tmr1if, ccp1if, ccp⟩ :=
      tick_t1_not_last h.mode.awake h.mode.running (by rw [h.pre, h.prescale]; exact less)
    have ccp := ccp h.mode.not_pwm
    have count : tmr1 (Machine.tick t) = tmr1 t := by
      rw [tmr1, t1]
      rfl
    exact ⟨h.mode.tick ccp, con, ccp.trans h.ccp, by rw [count, div, h.count], by rw [t1, mod, h.pre],
      tmr1if.trans h.tmr1if, ccp1if.trans h.ccp1if⟩
  · obtain ⟨div, mod⟩ := last full
    have below : (tmr1 t).toNat < (ccpr1 t).toNat := by
      have := Nat.div_lt_of_lt_mul (Nat.mul_comm _ _ ▸ hm)
      rw [h.count, h.period]
      omega
    obtain ⟨ccp, count, pre, tmr1if, ccp1if⟩ :=
      h.mode.tick_below (by rw [h.pre, h.prescale, full]) below
    exact ⟨h.mode.tick ccp, con, ccp.trans h.ccp, by rw [count, div, h.count], by rw [pre, mod],
      tmr1if.trans h.tmr1if, ccp1if.trans h.ccp1if⟩

/-- From 0000h the period runs up to its last cycle. -/
theorem periodRuns {s : State} (h : SpecialEventMode s) (hp : s.t1.pre = 0) (ht : tmr1 s = 0) (m : Nat)
    (hm : m < ((ccpr1 s).toNat + 1) * 2 ^ s.t1ckps) : PeriodRuns s (tickN m s) m := by
  induction m with
  | zero =>
    refine ⟨h, rfl, rfl, ?_, hp.trans (Nat.zero_mod _).symm, rfl, rfl⟩
    rw [Nat.zero_div]
    exact congrArg BitVec.toNat ht
  | succ m ih =>
    rw [tickN_succ]
    exact (ih (Nat.lt_of_succ_lt hm)).tick hm

/-- In the last cycle of the period Timer1 stands at CCPR1 and its prescaler at its last count. -/
theorem PeriodRuns.at_end {s t : State} {m : Nat} (h : PeriodRuns s t m)
    (hm : m + 1 = ((ccpr1 s).toNat + 1) * 2 ^ s.t1ckps) :
    2 ^ t.t1ckps ≤ t.t1.pre + 1 ∧ tmr1 t = ccpr1 t := by
  have positive : 0 < 2 ^ s.t1ckps := Nat.two_pow_pos _
  obtain ⟨div, mod⟩ := (Nat.div_mod_unique (a := m) (c := 2 ^ s.t1ckps - 1) (d := (ccpr1 s).toNat) positive).2
    ⟨by rw [Nat.succ_mul, Nat.mul_comm] at hm; omega, by omega⟩
  refine ⟨?_, BitVec.eq_of_toNat_eq ?_⟩
  · rw [h.prescale, h.pre, mod]
    omega
  · rw [h.count, div, h.period]

/-- Settles O48: `periodRuns` up to the last cycle, which is the match of `SpecialEventMode.tick_match`. -/
theorem specialEventPeriod : Obligations.SpecialEventPeriod := by
  intro s hs hm h0 h1 hp ht hr p n
  have mode : SpecialEventMode s := ⟨hs, h0, h1, congrArg BitVec.toNat hm, hr⟩
  have positive : 0 < n := Nat.mul_pos (Nat.succ_pos _) (Nat.two_pow_pos _)
  obtain ⟨k, hk⟩ : ∃ k, n = k + 1 := ⟨n - 1, by omega⟩
  have runs (m : Nat) (h : m < n) : PeriodRuns s (tickN m s) m := periodRuns mode hp ht m h
  have last := runs k (by omega)
  obtain ⟨prescaled, equal⟩ := last.at_end hk.symm
  obtain ⟨ccp, count, pre, tmr1if, ccp1if⟩ := last.mode.tick_match prescaled equal
  have ended : tickN n s = tick (tickN k s) := by rw [hk, tickN_succ]
  refine ⟨fun m h => ⟨(runs m h).count, (runs m h).pre, (runs m h).ccp1if⟩, ?_, ?_, ?_, fun m h => ?_⟩
  · rw [ended, count]
  · rw [ended, pre]
  · rw [ended, ccp1if]
  · obtain below | rfl := Nat.lt_or_eq_of_le h
    · exact ⟨(runs m below).tmr1if, (runs m below).ccp⟩
    · rw [ended]
      exact ⟨tmr1if.trans last.tmr1if, ccp.trans last.ccp⟩

end Sys2Proof.Machine
end

section
/-! Proofs of the statement about Timer2 and PWM (60_exceptions.md R357, R363): a clock of Timer2 as an equation for each of its
cases, and the two comparisons of a cycle. -/

namespace Sys2Proof.Machine

/-! ## A clock of Timer2 -/

theorem t2Prescale_congr {s t : State} (h : t.t2 = s.t2) : t2Prescale t = t2Prescale s := by
  rw [t2Prescale, t2Prescale, h]

/-- The state in which the match has restarted TMR2 and begun a PWM period. -/
def periodStarted (s : State) : State := pwmPeriodStart { s with t2 := { s.t2 with tmr := 0 } }

theorem periodStarted_t2 (s : State) : (periodStarted s).t2 = { s.t2 with tmr := 0 } := by
  unfold periodStarted pwmPeriodStart
  split <;> rfl

theorem periodStarted_pir1 (s : State) : (periodStarted s).pir1 = s.pir1 := by
  unfold periodStarted pwmPeriodStart
  split <;> rfl

theorem periodStarted_rmw (s : State) : (periodStarted s).rmw = s.rmw := (pwmPeriodStart_devices _).rmw

/-- In PWM mode the duty cycle is latched and the pin set unless the duty value is 0 (R363). -/
theorem periodStarted_ccp {s : State} (h : s.pwm = true) :
    (periodStarted s).ccp =
      { s.ccp with
        hi := s.ccp.lo
        latch := s.ccp.con.extractLsb' 4 2
        out := if s.ccp.lo = 0 ∧ s.ccp.con.extractLsb' 4 2 = 0 then s.ccp.out else true } := by
  have pwm : ({ s with t2 := { s.t2 with tmr := 0 } } : State).pwm = true := h
  rw [periodStarted, pwmPeriodStart, if_pos pwm]

/-- The match counts the postscaler, or restarts it with TMR2IF (R357). -/
theorem t2Match_eq (s : State) :
    t2Match s =
      if t2Postscale s ≤ s.t2.post + 1 then
        raisePir1 tmr2if { periodStarted s with t2 := { (periodStarted s).t2 with post := 0 } }
      else { periodStarted s with t2 := { (periodStarted s).t2 with post := s.t2.post + 1 } } := rfl

theorem t2Match_t2 (s : State) :
    (t2Match s).t2 =
      { s.t2 with tmr := 0, post := if t2Postscale s ≤ s.t2.post + 1 then 0 else s.t2.post + 1 } := by
  rw [t2Match_eq]
  split
  · rw [raisePir1_t2, periodStarted_t2]
  · rw [periodStarted_t2]

/-- The match sets TMR2IF exactly at the postscaler's last count, outside the race (R357). -/
theorem t2Match_tmr2if {s : State} (h : s.rmw ≠ .pir1) :
    (t2Match s).pir1.getLsbD 1 = true ↔ s.pir1.getLsbD 1 = true ∨ t2Postscale s ≤ s.t2.post + 1 := by
  rw [t2Match_eq]
  split
  next last =>
    refine iff_of_true (raisePir1_sets ?_ ?_) (.inr last)
    · exact (periodStarted_rmw s).trans_ne h
    · rfl
  next more =>
    rw [periodStarted_pir1]
    exact (or_iff_left more).symm

theorem t2Match_ccp (s : State) : (t2Match s).ccp = (periodStarted s).ccp := by
  rw [t2Match_eq]
  split
  · exact raisePir1_ccp _ _
  · rfl

/-- The clock at which the prescaler restarts finds TMR2 at PR2 (R357). -/
abbrev t2AtPeriod (s : State) : Prop := t2Prescale s ≤ s.t2.pre + 1 ∧ s.t2.tmr = s.t2.pr

theorem t2Clock_of_not_last {s : State} (h : s.t2.pre + 1 < t2Prescale s) :
    t2Clock s = { s with t2 := { s.t2 with pre := s.t2.pre + 1 } } :=
  if_neg (Nat.not_le.2 h)

theorem t2Clock_of_below {s : State} (h : t2Prescale s ≤ s.t2.pre + 1) (hn : s.t2.tmr ≠ s.t2.pr) :
    t2Clock s = { s with t2 := { s.t2 with pre := 0, tmr := s.t2.tmr + 1 } } :=
  (if_pos h).trans (if_neg hn)

/-- The state in which Timer2's prescaler has restarted. -/
def t2Restarted (s : State) : State := { s with t2 := { s.t2 with pre := 0 } }

theorem t2Clock_of_period {s : State} (h : t2AtPeriod s) : t2Clock s = t2Match (t2Restarted s) :=
  (if_pos h.1).trans (if_pos h.2)

/-- A clock without a match leaves CCP1 and PIR1. -/
theorem t2Clock_of_no_match {s : State} (h : ¬t2AtPeriod s) : (t2Clock s).ccp = s.ccp ∧ (t2Clock s).pir1 = s.pir1 := by
  obtain more | last := Nat.lt_or_ge (s.t2.pre + 1) (t2Prescale s)
  · rw [t2Clock_of_not_last more]
    exact ⟨rfl, rfl⟩
  · rw [t2Clock_of_below last fun k => h ⟨last, k⟩]
    exact ⟨rfl, rfl⟩

/-! ## The two comparisons of a cycle -/

/-- The duty cycle ends as the cycle begins (R363; log 28). -/
abbrev dutyEndsFirst (s : State) : Prop :=
  s.t2.tmr = s.ccp.hi ∧ (t2Prescale s = 1 ∨ pwmLowBits s = s.ccp.latch.toNat)

/-- The duty cycle ends as the cycle ends (R363). -/
abbrev dutyEndsLast (s : State) : Prop := s.t2.tmr = s.ccp.hi ∧ pwmLowBits s = s.ccp.latch.toNat

theorem pwmCompareQ_ccp {s : State} (h : s.pwm = true) :
    (pwmCompareQ s).ccp = if dutyEndsFirst s then { s.ccp with out := false } else s.ccp := by
  have condition : (s.pwm && s.t2.tmr == s.ccp.hi && (t2Prescale s == 1 || pwmLowBits s == s.ccp.latch.toNat)) = true ↔
      dutyEndsFirst s := by
    simp only [h, Bool.true_and, Bool.and_eq_true, Bool.or_eq_true, beq_iff_eq]
  rw [pwmCompareQ, apply_ite State.ccp]
  exact if_congr condition rfl rfl

theorem pwmCompare_ccp {s : State} (h : s.pwm = true) :
    (pwmCompare s).ccp = if dutyEndsLast s then { s.ccp with out := false } else s.ccp := by
  have condition : (s.pwm && s.t2.tmr == s.ccp.hi && pwmLowBits s == s.ccp.latch.toNat) = true ↔ dutyEndsLast s := by
    simp only [h, Bool.true_and, Bool.and_eq_true, beq_iff_eq]
  rw [pwmCompare, apply_ite State.ccp]
  exact if_congr condition rfl rfl

@[simp] theorem pwmCompareQ_t2 (s : State) : (pwmCompareQ s).t2 = s.t2 := by
  unfold pwmCompareQ
  split <;> rfl

@[simp] theorem pwmCompareQ_pir1 (s : State) : (pwmCompareQ s).pir1 = s.pir1 := by
  unfold pwmCompareQ
  split <;> rfl

@[simp] theorem pwmCompare_t2 (s : State) : (pwmCompare s).t2 = s.t2 := by
  unfold pwmCompare
  split <;> rfl

@[simp] theorem pwmCompare_pir1 (s : State) : (pwmCompare s).pir1 = s.pir1 := by
  unfold pwmCompare
  split <;> rfl

/-! ## A cycle of Timer2 -/

/-- The state in which Timer2 is clocked: the first comparison has been made. -/
def dutyChecked (s : State) : State := pwmCompareQ (timer2Begun s)

/-- The state in which the second comparison is made. -/
def timer2Counted (s : State) : State :=
  if (dutyChecked s).t2.con.getLsbD 2 then t2Clock (dutyChecked s) else dutyChecked s

theorem dutyChecked_t2 (s : State) : (dutyChecked s).t2 = s.t2 := (pwmCompareQ_t2 _).trans (timer2Begun_t2 s)

theorem dutyChecked_tmr2if (s : State) : (dutyChecked s).pir1.getLsbD 1 = s.pir1.getLsbD 1 := by
  rw [dutyChecked, pwmCompareQ_pir1, timer2Begun_tmr2if]

theorem dutyChecked_rmw (s : State) : (dutyChecked s).rmw = s.rmw :=
  (pwmCompareQ_devices _).rmw.trans (timer2Begun_rmw s)

/-- In PWM mode the first comparison, with what Timer2 and CCP1 were as the cycle began, may clear the pin (R363). -/
theorem dutyChecked_ccp {s : State} (h : s.pwm = true) :
    (dutyChecked s).ccp = if dutyEndsFirst s then { s.ccp with out := false } else s.ccp := by
  have begun := timer2Begun_ccp_of_pwm h
  have first : dutyEndsFirst (timer2Begun s) ↔ dutyEndsFirst s := by
    rw [dutyEndsFirst, dutyEndsFirst, pwmLowBits, pwmLowBits, t2Prescale_congr (timer2Begun_t2 s), timer2Begun_t2, begun]
  refine (pwmCompareQ_ccp (by rw [State.pwm, begun]; exact h)).trans (if_congr first ?_ begun)
  rw [begun]

theorem timer2Counted_of_on {s : State} (h : s.t2.con.getLsbD 2 = true) : timer2Counted s = t2Clock (dutyChecked s) := by
  rw [timer2Counted, dutyChecked_t2, if_pos h]

theorem timer2Counted_of_off {s : State} (h : ¬s.t2.con.getLsbD 2 = true) : timer2Counted s = dutyChecked s := by
  rw [timer2Counted, dutyChecked_t2, if_neg h]

theorem timer2Counted_only (s : State) : Timer2Only (timer2Begun s) (timer2Counted s) := by
  have checked : Timer2Only (timer2Begun s) (dutyChecked s) := pwmCompareQ_only _
  unfold timer2Counted
  split
  · exact checked.trans (t2Clock_only _)
  · exact checked

theorem tick_t2_counted {s : State} (h : s.sleeping = false) : (tick s).t2 = (timer2Counted s).t2 :=
  (tick_t2 h).trans (pwmCompare_t2 _)

theorem tick_tmr2if_counted {s : State} (h : s.sleeping = false) :
    (tick s).pir1.getLsbD 1 = (timer2Counted s).pir1.getLsbD 1 :=
  (tick_pir1_timer2 h).trans (congrArg (·.getLsbD 1) (pwmCompare_pir1 _))

/-- The match of a cycle: Timer2 is on and at its period. -/
abbrev t2Matches (s : State) : Prop := s.t2.con.getLsbD 2 = true ∧ t2AtPeriod s

theorem dutyChecked_atPeriod (s : State) : t2AtPeriod (dutyChecked s) ↔ t2AtPeriod s := by
  rw [t2AtPeriod, t2AtPeriod, t2Prescale_congr (dutyChecked_t2 s), dutyChecked_t2]

/-- A cycle without a match leaves CCP1 and PIR1 as the first comparison left them. -/
theorem timer2Counted_of_no_match {s : State} (h : ¬t2Matches s) :
    (timer2Counted s).ccp = (dutyChecked s).ccp ∧ (timer2Counted s).pir1 = (dutyChecked s).pir1 := by
  by_cases on : s.t2.con.getLsbD 2 = true
  · rw [timer2Counted_of_on on]
    exact t2Clock_of_no_match fun k => h ⟨on, (dutyChecked_atPeriod s).1 k⟩
  · rw [timer2Counted_of_off on]
    exact ⟨rfl, rfl⟩

theorem timer2Counted_of_match {s : State} (h : t2Matches s) : timer2Counted s = t2Match (t2Restarted (dutyChecked s)) := by
  rw [timer2Counted_of_on h.1, t2Clock_of_period ((dutyChecked_atPeriod s).2 h.2)]

theorem t2Restarted_t2 (s : State) : (t2Restarted (dutyChecked s)).t2 = { s.t2 with pre := 0 } :=
  congrArg (fun a : Timer2 => { a with pre := 0 }) (dutyChecked_t2 s)

theorem t2Restarted_postscale (s : State) : t2Postscale (t2Restarted (dutyChecked s)) = t2Postscale s := by
  rw [t2Postscale, t2Restarted_t2]
  rfl

/-- TMR2IF is set exactly at the match that is the postscaler's last count, outside the race (R357). -/
theorem tick_tmr2if {s : State} (hs : s.sleeping = false) (hr : s.rmw ≠ .pir1) :
    (tick s).pir1.getLsbD 1 = true ↔
      s.pir1.getLsbD 1 = true ∨ (t2Matches s ∧ t2Postscale s ≤ s.t2.post + 1) := by
  rw [tick_tmr2if_counted hs]
  by_cases h : t2Matches s
  · have norace : (t2Restarted (dutyChecked s)).rmw ≠ .pir1 := (dutyChecked_rmw s).trans_ne hr
    have flag : (t2Restarted (dutyChecked s)).pir1.getLsbD 1 = s.pir1.getLsbD 1 := dutyChecked_tmr2if s
    rw [timer2Counted_of_match h, t2Match_tmr2if norace, flag, t2Restarted_postscale, t2Restarted_t2, and_iff_right h]
  · rw [(timer2Counted_of_no_match h).2, dutyChecked_tmr2if]
    exact (or_iff_left fun k => h k.1).symm

/-- At the match TMR2 restarts, and the postscaler counts or restarts (R357). -/
theorem tick_t2_of_match {s : State} (hs : s.sleeping = false) (h : t2Matches s) :
    (tick s).t2 =
      { s.t2 with
        pre := 0, tmr := 0, post := if t2Postscale s ≤ s.t2.post + 1 then 0 else s.t2.post + 1 } := by
  rw [tick_t2_counted hs, timer2Counted_of_match h, t2Match_t2, t2Restarted_postscale, t2Restarted_t2]

theorem tick_t2_of_off {s : State} (hs : s.sleeping = false) (h : ¬s.t2.con.getLsbD 2 = true) : (tick s).t2 = s.t2 := by
  rw [tick_t2_counted hs, timer2Counted_of_off h, dutyChecked_t2]

/-- Between the prescaler's outputs it alone counts (R357). -/
theorem tick_t2_of_not_last {s : State} (hs : s.sleeping = false) (on : s.t2.con.getLsbD 2 = true)
    (h : s.t2.pre + 1 < t2Prescale s) : (tick s).t2 = { s.t2 with pre := s.t2.pre + 1 } := by
  rw [tick_t2_counted hs, timer2Counted_of_on on,
    t2Clock_of_not_last (by rw [dutyChecked_t2, t2Prescale_congr (dutyChecked_t2 s)]; exact h), dutyChecked_t2]

/-- At a prescaler's output below PR2 TMR2 counts (R357). -/
theorem tick_t2_of_below {s : State} (hs : s.sleeping = false) (on : s.t2.con.getLsbD 2 = true)
    (h : t2Prescale s ≤ s.t2.pre + 1) (hn : s.t2.tmr ≠ s.t2.pr) :
    (tick s).t2 = { s.t2 with pre := 0, tmr := s.t2.tmr + 1 } := by
  rw [tick_t2_counted hs, timer2Counted_of_on on,
    t2Clock_of_below (by rw [dutyChecked_t2, t2Prescale_congr (dutyChecked_t2 s)]; exact h)
      (by rw [dutyChecked_t2]; exact hn), dutyChecked_t2]

/-! ## The pin in PWM mode -/

section
variable {s : State} (hs : s.sleeping = false) (hp : s.pwm = true)
include hs hp

theorem tick_ccp_counted :
    (tick s).ccp =
      if dutyEndsLast (timer2Counted s) then { (timer2Counted s).ccp with out := false } else (timer2Counted s).ccp := by
  have pwm : (timer2Counted s).pwm = true := by
    rw [State.pwm, (timer2Counted_only s).con, timer2Begun_ccp]
    exact hp
  exact (tick_ccp hs).trans (pwmCompare_ccp pwm)

/-- The second comparison moves the pin alone. -/
theorem tick_duty_counted :
    (tick s).ccp.hi = (timer2Counted s).ccp.hi ∧ (tick s).ccp.latch = (timer2Counted s).ccp.latch := by
  rw [tick_ccp_counted hs hp]
  split <;> exact ⟨rfl, rfl⟩

/-- The second comparison, read off the state in which the cycle ends (R363). -/
theorem dutyEndsLast_counted :
    dutyEndsLast (timer2Counted s) ↔
      (tick s).t2.tmr = (tick s).ccp.hi ∧ (tick s).t2.pre * 4 / t2Prescale s = (tick s).ccp.latch.toNat := by
  obtain ⟨hi, latch⟩ := tick_duty_counted hs hp
  have con : (timer2Counted s).t2.con = s.t2.con :=
    (congrArg (·.t2.con) (timer2Counted_only s).frame).trans (congrArg (·.con) (timer2Begun_t2 s))
  have prescale : t2Prescale (timer2Counted s) = t2Prescale s := by rw [t2Prescale, t2Prescale, con]
  rw [dutyEndsLast, pwmLowBits, prescale, hi, latch, tick_t2_counted hs]

/-- The match latches the duty cycle (R363), and the pin is set unless the duty value is 0: then the comparison that follows
finds TMR2 and the bits below it at it. -/
theorem tick_ccp_of_match (h : t2Matches s) :
    (tick s).ccp.hi = s.ccp.lo ∧ (tick s).ccp.latch = s.ccp.con.extractLsb' 4 2 ∧
      (s.ccp.lo ≠ 0 ∨ s.ccp.con.extractLsb' 4 2 ≠ 0 → (tick s).ccp.out = true) := by
  have checked : (dutyChecked s).ccp.lo = s.ccp.lo ∧ (dutyChecked s).ccp.con = s.ccp.con := by
    rw [dutyChecked_ccp hp]
    split <;> exact ⟨rfl, rfl⟩
  obtain ⟨lo, con⟩ := checked
  have pwm : (t2Restarted (dutyChecked s)).pwm = true := by
    show ((dutyChecked s).ccp.con.getLsbD 3 && (dutyChecked s).ccp.con.getLsbD 2) = true
    rw [con]
    exact hp
  have started : (timer2Counted s).ccp = _ :=
    ((congrArg State.ccp (timer2Counted_of_match h)).trans (t2Match_ccp _)).trans (periodStarted_ccp pwm)
  have hi : (timer2Counted s).ccp.hi = s.ccp.lo := (congrArg (·.hi) started).trans lo
  have latch : (timer2Counted s).ccp.latch = s.ccp.con.extractLsb' 4 2 :=
    (congrArg (·.latch) started).trans (congrArg (·.extractLsb' 4 2) con)
  obtain ⟨hi', latch'⟩ := tick_duty_counted hs hp
  refine ⟨hi'.trans hi, latch'.trans latch, fun duty => ?_⟩
  have nonzero : ¬(s.ccp.lo = 0 ∧ s.ccp.con.extractLsb' 4 2 = 0) := fun k => duty.elim (· k.1) (· k.2)
  have later : ¬dutyEndsLast (timer2Counted s) := by
    rw [dutyEndsLast_counted hs hp, tick_t2_of_match hs h, hi', latch', hi, latch]
    rintro ⟨tmr, low⟩
    refine nonzero ⟨tmr.symm, BitVec.eq_of_toNat_eq (low.symm.trans ?_)⟩
    rw [Nat.zero_mul, Nat.zero_div]
    rfl
  rw [tick_ccp_counted hs hp, if_neg later]
  refine (congrArg (·.out) started).trans (if_neg ?_)
  show ¬((dutyChecked s).ccp.lo = 0 ∧ (dutyChecked s).ccp.con.extractLsb' 4 2 = 0)
  rw [lo, con]
  exact nonzero

/-- Without a match the duty cycle stays, and the pin is cleared by one of the two comparisons or left (R363). -/
theorem tick_ccp_of_no_match (h : ¬t2Matches s) :
    (tick s).ccp.hi = s.ccp.hi ∧ (tick s).ccp.latch = s.ccp.latch ∧
      (¬dutyEndsLast (timer2Counted s) → (tick s).ccp = if dutyEndsFirst s then { s.ccp with out := false } else s.ccp) := by
  have counted : (timer2Counted s).ccp = if dutyEndsFirst s then { s.ccp with out := false } else s.ccp :=
    (timer2Counted_of_no_match h).1.trans (dutyChecked_ccp hp)
  have kept : (timer2Counted s).ccp.hi = s.ccp.hi ∧ (timer2Counted s).ccp.latch = s.ccp.latch := by
    rw [counted]
    split <;> exact ⟨rfl, rfl⟩
  obtain ⟨hi, latch⟩ := tick_duty_counted hs hp
  refine ⟨hi.trans kept.1, latch.trans kept.2, fun k => ?_⟩
  rw [tick_ccp_counted hs hp, if_neg k, counted]

end

/-- Settles O49: Timer2's cases and TMR2IF, and in PWM mode the cycle with a match and the cycle without. -/
theorem timer2InstructionCycle : Obligations.Timer2InstructionCycle := by
  intro s hs hr t prescale postscale on isMatch
  have restarted (n : Nat) (h : isMatch)
      (hn : (if t2Postscale s ≤ s.t2.post + 1 then 0 else s.t2.post + 1) = n) :
      t.t2 = { s.t2 with pre := 0, tmr := 0, post := n } := hn ▸ tick_t2_of_match hs h
  refine ⟨tick_t2_of_off hs, tick_t2_of_not_last hs, tick_t2_of_below hs,
    fun h more => restarted _ h (if_neg (Nat.not_le.2 more)), fun h last => restarted _ h (if_pos last),
    tick_tmr2if hs hr, fun mode => ?_⟩
  intro ends begins
  have hp : s.pwm = true := (pwm_iff s).2 mode
  have last : dutyEndsLast (timer2Counted s) ↔ ends := dutyEndsLast_counted hs hp
  refine ⟨tick_ccp_of_match hs hp, fun h => ?_, fun e => ?_, fun ne h b => ?_, fun ne h nb => ?_⟩
  · obtain ⟨hi, latch, -⟩ := tick_ccp_of_no_match hs hp h
    exact ⟨hi, latch⟩
  · exact congrArg (·.out) ((tick_ccp_counted hs hp).trans (if_pos (last.2 e)))
  · obtain ⟨-, -, out⟩ := tick_ccp_of_no_match hs hp h
    exact congrArg (·.out) ((out (mt last.1 ne)).trans (if_pos b))
  · obtain ⟨-, -, out⟩ := tick_ccp_of_no_match hs hp h
    exact congrArg (·.out) ((out (mt last.1 ne)).trans (if_neg nb))

end Sys2Proof.Machine
end

section
/-! Proofs of the statements about the data EEPROM (60_exceptions.md R371 to R375): what a write of EECON1 starts, the required
sequence, and the completion of a write. -/

namespace Sys2Proof.Machine

/-! ## A write of EECON1 -/

theorem eeRead_write (s : State) : (eeRead s).ee.write = s.ee.write := by
  unfold eeRead
  split <;> rfl

theorem eeRead_unlock (s : State) : (eeRead s).ee.unlock = s.ee.unlock := by
  unfold eeRead
  split <;> rfl

/-- The condition on which setting WR starts a write (R374; log 36). -/
abbrev eeMayStart (wren : Bool) (s : State) : Prop := wren = true ∧ s.ee.unlock = .complete

/-- Setting WR starts the write exactly on its condition, and uses the sequence up (R374). -/
theorem eeStart_ee (wren : Bool) (s : State) :
    (eeStart wren s).ee.write =
      (if eeMayStart wren s then some ⟨s.ee.adr.extractLsb' 0 7, s.ee.data, 0⟩ else s.ee.write) ∧
      (eeStart wren s).ee.unlock = .idle := by
  have condition : (wren && s.ee.unlock == .complete) = true ↔ eeMayStart wren s := by
    rw [Bool.and_eq_true, beq_iff_eq]
  unfold eeStart
  by_cases h : eeMayStart wren s
  · rw [if_pos (condition.2 h), if_pos h]
    exact ⟨rfl, rfl⟩
  · rw [if_neg (mt condition.1 h), if_neg h]
    exact ⟨rfl, rfl⟩

/-- The write of EECON1 up to WR: RD is dealt with after it (log 37). -/
def eecon1Stored (v : Byte) (s : State) : State :=
  if v.getLsbD 1 then eeStart (s.ee.con1.getLsbD 2) { s with ee := { s.ee with con1 := v &&& 0x0C } }
  else { s with ee := { s.ee with con1 := v &&& 0x0C } }

theorem writeEecon1_stored (v : Byte) (s : State) :
    writeEecon1 v s = if v.getLsbD 0 then eeRead (eecon1Stored v s) else eecon1Stored v s := rfl

theorem writeEecon1_progress (v : Byte) (s : State) :
    (writeEecon1 v s).ee.write = (eecon1Stored v s).ee.write ∧
      (writeEecon1 v s).ee.unlock = (eecon1Stored v s).ee.unlock := by
  rw [writeEecon1_stored]
  split
  · exact ⟨eeRead_write _, eeRead_unlock _⟩
  · exact ⟨rfl, rfl⟩

/-- A write of EECON1 starts a write of the array exactly if it sets WR, WREN was 1 and the sequence has just completed
(R374; log 36). -/
theorem writeEecon1_write (v : Byte) (s : State) :
    (writeEecon1 v s).ee.write =
      if v.getLsbD 1 = true ∧ s.ee.con1.getLsbD 2 = true ∧ s.ee.unlock = .complete then
        some ⟨s.ee.adr.extractLsb' 0 7, s.ee.data, 0⟩
      else s.ee.write := by
  rw [(writeEecon1_progress v s).1, eecon1Stored]
  by_cases wr : v.getLsbD 1 = true
  · rw [if_pos wr, (eeStart_ee _ _).1]
    exact if_congr (and_iff_right wr).symm rfl rfl
  · rw [if_neg wr, if_neg fun h => wr h.1]

/-- Setting WR uses the sequence up. -/
theorem writeEecon1_unlock {v : Byte} (h : v.getLsbD 1 = true) (s : State) : (writeEecon1 v s).ee.unlock = .idle := by
  rw [(writeEecon1_progress v s).2, eecon1Stored, if_pos h]
  exact (eeStart_ee _ _).2

/-- Setting RD alone loads EEDATA, if no write is in progress (R371). -/
theorem writeEecon1_read {v : Byte} {s : State} (hw : s.ee.write = none) (rd : v.getLsbD 0 = true)
    (wr : v.getLsbD 1 = false) :
    (writeEecon1 v s).ee.data = Memory.read eeBlank s.ee.cells (s.ee.adr.toNat % 128) := by
  rw [writeEecon1_stored, if_pos rd, eecon1Stored, if_neg (Bool.eq_false_iff.1 wr), eeRead, hw]
  rfl

/-- WR reads 1 exactly while a write is in progress (R374). -/
theorem readEecon1_wr (e : Eeprom) : (readEecon1 e).getLsbD 1 = e.write.isSome :=
  (setBit_getLsbD (by decide) _ _).trans (if_pos rfl)

/-- RD reads 0 after a write of EECON1 (R371). -/
theorem readEecon1_rd (v : Byte) (s : State) : (readEecon1 (writeEecon1 v s).ee).getLsbD 0 = false := by
  have con1 : (writeEecon1 v s).ee.con1 = v &&& 0x0C := congrArg (·.ee.con1) (writeEecon1_eq v s)
  rw [readEecon1, setBit_getLsbD (by decide), if_neg (by decide), con1, BitVec.getLsbD_and]
  exact Bool.and_false _

/-- Settles O51. -/
theorem eepromControlWrite : Obligations.EepromControlWrite := by
  intro s v t
  exact ⟨writeEecon1_write v s, fun h => writeEecon1_unlock h.1 s, congrArg (·.ee.cells) (writeEecon1_eq v s),
    readEecon1_wr t.ee, readEecon1_rd v s, writeEecon1_read⟩

/-! ## Completion of a write -/

theorem eeComplete_of_cycle {s : State} {w : EeWrite} (hw : s.ee.write = some w) (hc : 2 ≤ w.cycles) :
    eeComplete s =
      raisePir1 eeif
        { s with
          ee := { s.ee with cells := Memory.write eeBlank s.ee.cells w.addr.toNat w.data, write := none } } := by
  simp only [eeComplete, hw, if_pos hc]

/-- Settles O52: the array's canonical form makes the byte written the byte read; the event is in no race, so that EEIF is
set. -/
theorem eepromWriteCompletes : Obligations.EepromWriteCompletes := by
  intro s w h hw hc t
  obtain ⟨-, -, wf, -⟩ := h.ee
  have rising : Memory.rising s.ee.cells = true := (Bool.and_eq_true_iff.1 wf).1
  have done : t = lapse _ := congrArg lapse (eeComplete_of_cycle (s := { s with rmw := .none }) hw hc)
  have ee : t.ee = { s.ee with cells := Memory.write eeBlank s.ee.cells w.addr.toNat w.data, write := none } := by
    rw [done]
    exact raisePir1_ee _ _
  refine ⟨?_, fun a ha => ?_, ?_, ?_⟩
  · rw [ee]
    exact Memory.read_write_self rising
  · rw [ee]
    exact Memory.read_write_other ha _
  · exact (readEecon1_wr t.ee).trans (by rw [ee]; rfl)
  · rw [done]
    refine raisePir1_sets ?_ ?_
    · exact fun k => nomatch k
    · rfl

/-! ## Time moves the EEPROM's cycle count alone -/

theorem tick_ee (s : State) : (tick s).ee = eeCycle s.ee := by
  cases hs : s.sleeping with
  | true => rw [tick_asleep hs]; rfl
  | false =>
    rw [tick_begun hs]
    exact (congrArg (·.ee) (t2Cycle_only _).frame).trans
      ((congrArg (·.ee) (t1Cycle_only _).frame).trans (congrArg (·.ee) (t0Cycle_only _)))

theorem t0Edge_ee (a : Byte) (s : State) : (t0Edge a s).ee = s.ee := by
  unfold t0Edge
  dsimp only
  generalize (if s.t0se then falls s.io.seenA a 4 else rises s.io.seenA a 4) = edge
  split
  · exact congrArg (·.ee) (t0Clock_only s)
  · rfl

theorem t1Edge_ee (c : Bool) (s : State) : (t1Edge c s).ee = s.ee := by
  unfold t1Edge
  repeat' split
  · rfl
  · exact congrArg (·.ee) (t1Clock_only s).frame
  · rfl
  · rfl

theorem capture_ee (s : State) : (capture s).ee = s.ee := raisePir1_ee _ _

theorem captureEvery_ee (n : Nat) (s : State) : (captureEvery n s).ee = s.ee := by
  unfold captureEvery
  split
  · exact capture_ee _
  · rfl

theorem captureEdge_ee (b : Byte) (s : State) : (captureEdge b s).ee = s.ee := by
  unfold captureEdge
  repeat' split
  · exact capture_ee s
  · rfl
  · exact capture_ee s
  · rfl
  · exact captureEvery_ee 4 s
  · rfl
  · exact captureEvery_ee 16 s
  · rfl
  · rfl

theorem intEdge_ee (b : Byte) (s : State) : (intEdge b s).ee = s.ee := by
  rw [intEdge_eq]
  split
  · exact raiseIntcon_ee _ s
  · rfl

theorem portChange_ee (b : Byte) (s : State) : (portChange b s).ee = s.ee := by
  unfold portChange
  split
  · exact raiseIntcon_ee _ s
  · rfl

theorem comparatorChange_ee (s : State) : (comparatorChange s).ee = s.ee := by
  unfold comparatorChange
  split
  · exact raisePir1_ee _ s
  · rfl

theorem sample_ee (s : State) : (sample s).ee = s.ee := by
  rw [sample_eq, remember_ee, comparatorChange_ee, portChange_ee, intEdge_ee, edgesCounted, captureEdge_ee, t1Edge_ee,
    t0Edge_ee]

/-- An instruction of one cycle moves the EEPROM's cycle count by one (R375). -/
theorem finishStep_ee {s : State} (h : s.cycles = 1) : (finishStep s).ee = eeCycle s.ee := by
  rw [finishStep, sample_ee, endWrite_ee, h]
  exact tick_ee s

/-! ## The required sequence -/

/-- Which instruction carries the sequence on, and after which it does (R373, D31). -/
theorem unlockNext_iff (i : Instr) (s : State) :
    (unlockNext i s = .loaded55 ↔ i = .movlw 0x55) ∧
    (unlockNext i s = .wrote55 ↔ s.ee.unlock = .loaded55 ∧ s.w = 0x55 ∧ ∃ f, i = .movwf f ∧ operandReg f s = .eecon2) ∧
    (unlockNext i s = .loadedAA ↔ s.ee.unlock = .wrote55 ∧ i = .movlw 0xAA) ∧
    (unlockNext i s = .wroteAA ↔ s.ee.unlock = .loadedAA ∧ s.w = 0xAA ∧ ∃ f, i = .movwf f ∧ operandReg f s = .eecon2) ∧
    (unlockNext i s = .complete ↔ s.ee.unlock = .wroteAA ∧ ∃ f, i = .bsf f 1 ∧ operandReg f s = .eecon1) := by
  cases i with
  | movlw | movwf | bsf =>
    simp only [unlockNext]
    grind
  | _ => simp [unlockNext]

/-- `t` comes after instructions of the sequence run from `s` in bank 1: how far it is, W, and what stays. -/
structure SequenceAt (s t : State) (u : Unlock) (w : Byte) : Prop where
  bank : t.rp = 1
  unlock : t.ee.unlock = u
  w : t.w = w
  con1 : t.ee.con1 = s.ee.con1
  adr : t.ee.adr = s.ee.adr
  data : t.ee.data = s.ee.data
  cells : t.ee.cells = s.ee.cells

/-- Bank 1 shows EECON2 at 1Dh and EECON1 at 1Ch (R51). -/
theorem operandReg_eecon {s : State} (h : s.rp = 1) :
    operandReg 0x1D s = .eecon2 ∧ operandReg 0x1C s = .eecon1 := by
  rw [operandReg, operandReg, ea, ea, if_neg (by decide), if_neg (by decide), h]
  exact ⟨rfl, rfl⟩

theorem rp_eq_one {s : State} (h6 : s.status.getLsbD 6 = false) (h5 : s.status.getLsbD 5 = true) : s.rp = 1 :=
  BitVec.eq_of_toNat_eq (by rw [rp_toNat, h6, h5]; rfl)

/-- An instruction of one cycle whose effect leaves the bank and the EEPROM, but for how far the sequence is, leaves them over its
cycle too. -/
theorem SequenceAt.next {s t x : State} {u : Unlock} {w : Byte} {i : Instr} (h : SequenceAt s t u w)
    (hx : (shapeOf i (beginInstr i t)).run (beginInstr i t) = x) (hc : x.cycles = 1) (hs : x.status = t.status)
    (he : x.ee = { t.ee with unlock := unlockNext i t }) :
    ∃ t', runInstr i t = .next t' ∧ SequenceAt s t' (unlockNext i t) x.w := by
  have d := finishStep_devices (lapse x)
  have ee : (finishStep (lapse x)).ee = eeCycle { t.ee with unlock := unlockNext i t } :=
    (finishStep_ee (s := lapse x) hc).trans (congrArg eeCycle he)
  refine ⟨finishStep (lapse x), by rw [runInstr_eq, hx], ?_⟩
  constructor
  case bank => exact (congrArg (·.extractLsb' 5 2) (d.status.trans hs)).trans h.bank
  case w => exact d.w
  case unlock => rw [ee]; rfl
  case con1 => rw [ee]; exact h.con1
  case adr => rw [ee]; exact h.adr
  case data => rw [ee]; exact h.data
  case cells => rw [ee]; exact h.cells

theorem SequenceAt.movlw {s t : State} {u : Unlock} {w : Byte} (h : SequenceAt s t u w) (k : Byte) :
    ∃ t', runInstr (.movlw k) t = .next t' ∧ SequenceAt s t' (unlockNext (.movlw k) t) k :=
  h.next (x := advance { beginInstr (.movlw k) t with w := k }) (congrArg advance (putFlags_none false _)) rfl rfl rfl

theorem SequenceAt.movwf {s t : State} {u : Unlock} {w : Byte} (h : SequenceAt s t u w) :
    ∃ t', runInstr (.movwf 0x1D) t = .next t' ∧ SequenceAt s t' (unlockNext (.movwf 0x1D) t) w := by
  have eecon2 : operandReg 0x1D (beginInstr (.movwf 0x1D) t) = .eecon2 := (operandReg_eecon h.bank).1
  have run : (shapeOf (.movwf 0x1D) (beginInstr (.movwf 0x1D) t)).run (beginInstr (.movwf 0x1D) t) =
      advance (beginInstr (.movwf 0x1D) t) := by
    rw [shapeOf, Shape.run, fileWrite, eecon2]
    rfl
  obtain ⟨t', ht, next⟩ := h.next run rfl rfl rfl
  exact ⟨t', ht, h.w ▸ next⟩

/-- BSF of WR is a write of EECON1 that sets WR, in one cycle (R242). -/
theorem bsf_wr_ee {f : BitVec 7} {s : State} (h : operandReg f s = .eecon1) :
    ∃ v : Byte, v.getLsbD 1 = true ∧
      (fileOp f .toF (fun v => plain (setBit v 1 true)) s).ee = (writeEecon1 v s).ee ∧
      (fileOp f .toF (fun v => plain (setBit v 1 true)) s).cycles = 1 := by
  have run := fileOp_plain f .toF (fun v => setBit v 1 true) s
  rw [h] at run
  refine ⟨setBit (readValue .eecon1 s) 1 true, (setBit_getLsbD (by decide) _ _).trans (if_pos rfl), ?_, ?_⟩
  · rw [run]
    rfl
  · rw [run]
    rfl

/-- BSF EECON1, WR at the end of the sequence, with WREN = 1, starts the write (R374). -/
theorem SequenceAt.bsf {s t : State} {w : Byte} (h : SequenceAt s t .wroteAA w) (wren : s.ee.con1.getLsbD 2 = true) :
    ∃ t', runInstr (.bsf 0x1C 1) t = .next t' ∧
      t'.ee.write = some ⟨s.ee.adr.extractLsb' 0 7, s.ee.data, 1⟩ ∧ t'.ee.cells = s.ee.cells := by
  obtain ⟨-, eecon1⟩ := operandReg_eecon h.bank
  obtain ⟨-, -, -, -, completes⟩ := unlockNext_iff (.bsf 0x1C 1) t
  have complete : (beginInstr (.bsf 0x1C 1) t).ee.unlock = .complete := completes.2 ⟨h.unlock, 0x1C, rfl, eecon1⟩
  obtain ⟨v, wr, effect, cycle⟩ := bsf_wr_ee (s := beginInstr (.bsf 0x1C 1) t) eecon1
  have ee := (finishStep_ee (s := lapse _) cycle).trans (congrArg eeCycle effect)
  refine ⟨_, runInstr_eq _ _, (congrArg (·.write) ee).trans ?_, ?_⟩
  · rw [eeCycle, writeEecon1_write, if_pos ⟨wr, (congrArg (·.getLsbD 2) h.con1).trans wren, complete⟩]
    show some (EeWrite.mk (t.ee.adr.extractLsb' 0 7) t.ee.data 1) = _
    rw [h.adr, h.data]
  · exact ((congrArg (·.cells) ee).trans (congrArg (·.ee.cells) (writeEecon1_eq v _))).trans h.cells

/-- Settles O50: `unlockNext_iff`, and the five instructions one after the other. -/
theorem eepromUnlockTiming : Obligations.EepromUnlockTiming := by
  refine ⟨unlockNext_iff, fun s => rfl, fun s h6 h5 wren => ?_⟩
  have start : SequenceAt s s s.ee.unlock s.w := ⟨rp_eq_one h6 h5, rfl, rfl, rfl, rfl, rfl, rfl⟩
  obtain ⟨a, ha, sa⟩ := start.movlw 0x55
  obtain ⟨loads55, -⟩ := unlockNext_iff (.movlw 0x55) s
  rw [loads55.2 rfl] at sa
  obtain ⟨b, hb, sb⟩ := sa.movwf
  obtain ⟨-, writes55, -⟩ := unlockNext_iff (.movwf 0x1D) a
  rw [writes55.2 ⟨sa.unlock, sa.w, 0x1D, rfl, (operandReg_eecon sa.bank).1⟩] at sb
  obtain ⟨c, hc, sc⟩ := sb.movlw 0xAA
  obtain ⟨-, -, loadsAA, -⟩ := unlockNext_iff (.movlw 0xAA) b
  rw [loadsAA.2 ⟨sb.unlock, rfl⟩] at sc
  obtain ⟨d, hd, sd⟩ := sc.movwf
  obtain ⟨-, -, -, writesAA, -⟩ := unlockNext_iff (.movwf 0x1D) c
  rw [writesAA.2 ⟨sc.unlock, sc.w, 0x1D, rfl, (operandReg_eecon sc.bank).1⟩] at sd
  obtain ⟨e, he, written⟩ := sd.bsf wren
  exact ⟨a, b, c, d, e, ha, hb, hc, hd, he, written⟩

end Sys2Proof.Machine
end

section
/-! Proofs of the statement about the USART's receiver (60_exceptions.md R366 to R369): the frame as an event, what the buffer does
with its byte, and the end of an overrun. -/

namespace Sys2Proof.Machine

/-! ## A frame arrives -/

/-- The event moves the USART alone, and only while the receiver is on. -/
theorem frameEvent_usart (s : State) (bits : BitVec 9) (stop : Bool) :
    (eventStep false (.frame bits stop) s).usart =
      if receiving s then receiveFrame bits stop s.usart else s.usart := by
  show (applyEvent (.frame bits stop) { s with rmw := .none }).usart = _
  exact apply_ite State.usart _ _ _

/-- The receiver's conditions, one by one (R62, R366; logs 34, 55). -/
theorem receiving_iff (s : State) :
    receiving s = true ↔
      s.sleeping = false ∧ s.usart.rcsta.getLsbD 7 = true ∧ s.usart.txsta.getLsbD 4 = false ∧
        (s.usart.rcsta.getLsbD 4 = true ∨ s.usart.rcsta.getLsbD 5 = true) ∧ s.usart.rcsta.getLsbD 1 = false ∧
        s.usart.rxStopped = false := by
  simp only [receiving, Bool.and_eq_true, Bool.or_eq_true, Bool.not_eq_true', and_assoc]

/-- A receiver that is not on loses the frame, RSR included (log 34). -/
theorem frameEvent_ignored {s : State} (h : ¬receiving s = true) (bits : BitVec 9) (stop : Bool) :
    (eventStep false (.frame bits stop) s).usart = s.usart := by
  rw [frameEvent_usart, if_neg h]

/-! ## The byte of a frame -/

/-- With RX9 = ADEN = 1 a data byte reaches RSR alone (R369). -/
theorem receiveFrame_address {bits : BitVec 9} {u : Usart} (stop : Bool)
    (h : u.rcsta.getLsbD 6 = true ∧ u.rcsta.getLsbD 3 = true ∧ bits.getLsbD 8 = false) :
    receiveFrame bits stop u = { u with rsr := bits } := by
  obtain ⟨rx9, aden, data⟩ := h
  simp only [receiveFrame, rx9, aden, data, Bool.not_false, Bool.and_self, if_true]

/-- Any other frame is an overrun if the buffer is full, and else joins the buffer (R366). -/
theorem receiveFrame_other {bits : BitVec 9} {u : Usart} (stop : Bool)
    (h : ¬(u.rcsta.getLsbD 6 = true ∧ u.rcsta.getLsbD 3 = true ∧ bits.getLsbD 8 = false)) :
    receiveFrame bits stop u =
      if 2 ≤ u.fifo.length then { u with rsr := bits, rcsta := setBit u.rcsta 1 true, rxStopped := true }
      else rxPush (rxByte u.rcsta bits stop) { u with rsr := bits } := by
  have taken : ¬(u.rcsta.getLsbD 6 && u.rcsta.getLsbD 3 && !bits.getLsbD 8) = true := by
    simpa only [Bool.and_eq_true, Bool.not_eq_true', and_assoc] using h
  exact if_neg taken

theorem rxPush_fifo (b : RxByte) (u : Usart) : (rxPush b u).fifo = u.fifo ++ [b] := by
  unfold rxPush
  split
  next h => rw [h]; rfl
  next => rfl

/-- A byte that enters an empty buffer shows its status (R366). -/
theorem rxPush_rcsta {b : RxByte} {u : Usart} (h : u.fifo = []) : (rxPush b u).rcsta = headStatus b u.rcsta := by
  simp only [rxPush, h]

/-! ## RCIF, and the buffer's last byte -/

/-- PIR1 shows RCIF (R54). -/
theorem peek_pir1_rcif (s : State) : (peek .pir1 s).getLsbD 5 = s.rcif :=
  (setBit_getLsbD (by decide) _ _).trans (if_pos rfl)

theorem rcif_of_fifo {s : State} {b : RxByte} {l : List RxByte} (h : s.usart.fifo = l ++ [b]) : s.rcif = true := by
  rw [State.rcif, h]
  cases l <;> rfl

/-- Reading the last byte clears RCIF (R366). -/
theorem rcif_after_last {s : State} {b : RxByte} (h : s.usart.fifo = [b]) : (readEffect .rcreg s).rcif = false := by
  rw [readEffect_rcreg_last h]
  rfl

/-- What stands in an awake receiver after a frame whose byte joins the buffer (R366, R368). -/
theorem frame_joins {s t : State} {bits : BitVec 9} {stop : Bool}
    (ht : t.usart = rxPush (rxByte s.usart.rcsta bits stop) { s.usart with rsr := bits }) :
    t.usart.fifo.map RxByte.data = s.usart.fifo.map RxByte.data ++ [bits.extractLsb' 0 8] ∧
      (peek .pir1 t).getLsbD 5 = true ∧
      (s.usart.fifo = [] →
        peek .rcreg t = bits.extractLsb' 0 8 ∧ t.usart.rcsta.getLsbD 2 = !stop ∧
        (s.usart.rcsta.getLsbD 6 = true → t.usart.rcsta.getLsbD 0 = bits.getLsbD 8) ∧
        (peek .pir1 (readEffect .rcreg t)).getLsbD 5 = false) := by
  have fifo : t.usart.fifo = s.usart.fifo ++ [rxByte s.usart.rcsta bits stop] :=
    (congrArg (·.fifo) ht).trans (rxPush_fifo _ _)
  refine ⟨?_, (peek_pir1_rcif t).trans (rcif_of_fifo fifo), fun empty => ?_⟩
  · rw [fifo, List.map_append]
    rfl
  · have only : t.usart.fifo = [rxByte s.usart.rcsta bits stop] := by rw [fifo, empty, List.nil_append]
    have rcsta : t.usart.rcsta = headStatus (rxByte s.usart.rcsta bits stop) s.usart.rcsta :=
      (congrArg (·.rcsta) ht).trans (rxPush_rcsta (u := { s.usart with rsr := bits }) empty)
    obtain ⟨-, ferr, rx9d⟩ := headStatus_bits (rxByte s.usart.rcsta bits stop) s.usart.rcsta
    refine ⟨?_, ?_, fun rx9 => ?_, (peek_pir1_rcif _).trans (rcif_after_last only)⟩
    · simp only [peek, only]
      rfl
    · rw [rcsta, ferr]
      rfl
    · rw [rcsta]
      exact rx9d _ (if_pos rx9)

/-- Settles O53: the frame's cases, and the writes of RCSTA by `writeRcsta_getLsbD`. -/
theorem receiveBuffer : Obligations.ReceiveBuffer := by
  constructor
  · intro s bits stop spen async enabled t
    refine ⟨fun asleep => ?_, fun stopped => ?_, fun awake oerr running => ?_⟩
    · refine frameEvent_ignored (fun h => ?_) bits stop
      obtain ⟨awake, -⟩ := (receiving_iff s).1 h
      exact Bool.false_ne_true (awake.symm.trans asleep)
    · refine frameEvent_ignored (fun h => ?_) bits stop
      obtain ⟨-, -, -, -, oerr, running⟩ := (receiving_iff s).1 h
      exact stopped.elim (fun k => Bool.false_ne_true (oerr.symm.trans k))
        fun k => Bool.false_ne_true (running.symm.trans k)
    · have received : t.usart = receiveFrame bits stop s.usart :=
        (frameEvent_usart s bits stop).trans
          (if_pos ((receiving_iff s).2 ⟨awake, spen, async, enabled, oerr, running⟩))
      split
      case isTrue h => exact received.trans (receiveFrame_address stop h)
      case isFalse h =>
        rw [receiveFrame_other stop h] at received
        split
        case isTrue full =>
          rw [received, if_pos full]
          exact ⟨rfl, (setBit_getLsbD (by decide) _ _).trans (if_pos rfl), rfl⟩
        case isFalse room => exact frame_joins (received.trans (if_neg room))
  · intro s v w oerr stopped u
    obtain ⟨-, oerr', stopped'⟩ := writeRcsta_getLsbD v s
    rw [oerr, stopped] at stopped'
    rw [oerr, Bool.and_true] at oerr'
    split
    case isTrue cren => exact ⟨oerr'.trans cren, stopped'.trans (by rw [cren]; rfl)⟩
    case isFalse cren =>
      have cleared : u.usart.rcsta.getLsbD 1 = false := oerr'.trans (Bool.eq_false_iff.2 cren)
      have still : u.usart.rxStopped = true := stopped'.trans (by rw [Bool.eq_false_iff.2 cren]; rfl)
      obtain ⟨-, -, again⟩ := writeRcsta_getLsbD w u
      refine ⟨cleared, still, again.trans ?_⟩
      rw [cleared, still, Bool.not_false, Bool.and_true, Bool.true_and]

end Sys2Proof.Machine
end

section
/-! Proofs of the statement about the reset causes (70_reset_and_hazards.md R404): STATUS and PCON by cause, and the watchdog's
wake-up (R385). -/

namespace Sys2Proof.Machine

/-! ## The reset's PC, STATUS and PCON -/

theorem takeReset_pc (c : ResetCause) (s : State) : (takeReset c s).pc = 0x0000 := by
  cases c <;> rfl

/-- The open bits of STATUS are the state's next open value. -/
theorem takeReset_status (c : ResetCause) (s : State) : (takeReset c s).status = resetStatus c s.free s := by
  cases c <;> rfl

theorem takeReset_pcon (c : ResetCause) (s : State) : (takeReset c s).pcon = resetPcon c s := by
  cases c <;> rfl

/-! ## STATUS by cause -/

/-- Bits outside the mask of `merge` are the old ones. -/
theorem merge_and_kept {k m : Byte} (h : k &&& m = 0) (o v : Byte) : merge k o v &&& m = o &&& m := by
  refine BitVec.eq_of_getLsbD_eq fun i hi => ?_
  have apart : (k.getLsbD i && m.getLsbD i) = false := by
    rw [← BitVec.getLsbD_and, h]
    exact BitVec.getLsbD_zero
  rw [BitVec.getLsbD_and, BitVec.getLsbD_and, merge_getLsbD k o v hi]
  split
  next hk =>
    rw [hk, Bool.true_and] at apart
    rw [apart, Bool.and_false, Bool.and_false]
  next => rfl

/-- STATUS after MCLR tells a sleeping core from an awake one (R404). -/
theorem resetStatus_mclr (v : Byte) (s : State) :
    resetStatus .mclr v s = if s.sleeping then 0x10 ||| (s.status &&& 0x07) else s.status &&& 0x1F := by
  rw [BitVec.or_comm]
  rfl

/-- A brown-out leaves Z, DC and C as they were, whatever TO and PD become (R404). -/
theorem resetStatus_bod_flags (v : Byte) (s : State) : resetStatus .bod v s &&& 0x07 = s.status &&& 0x07 :=
  (merge_and_kept (by decide) _ v).trans (BitVec.and_assoc _ _ _)

/-- Every reset clears IRP, RP1 and RP0 (R404). -/
theorem resetStatus_bank (c : ResetCause) (v : Byte) (s : State) : resetStatus c v s &&& 0xE0 = 0 := by
  cases c with
  | por => exact (by decide : State.reset.status &&& 0xE0 = 0)
  | mclr =>
    rw [resetStatus_mclr]
    split
    · exact and_or_zero (by decide) (masked_and_zero (by decide) _)
    · exact masked_and_zero (by decide) _
  | wdt => exact masked_and_zero (k := 0x0F) (by decide) _
  | bod => exact merge_and_zero (masked_and_zero (k := 0x07) (by decide) _) (by decide)

/-! ## Power-on -/

theorem reset_status_masked : State.reset.status &&& 0xF8 = 0x18 := by decide

theorem reset_pcon_masked : State.reset.pcon &&& 0xFE = 0x08 := by decide

/-! ## The watchdog's time-out -/

/-- A time-out wakes a sleeping core, with TO cleared and the count started again, and resets an awake one (R381, R385;
log 18). -/
theorem wdtTimeout_eq (s : State) :
    wdtTimeout s =
      if s.sleeping then
        { s with status := s.status &&& 0xEF, sleeping := false, prefetched := true, wdt := 0 }
      else takeReset .wdt s := rfl

/-- Settles O54: STATUS and PCON as `resetStatus` and `resetPcon` give them for each cause, and the two cases of a time-out. -/
theorem resetStatusAndPcon : Obligations.ResetStatusAndPcon := by
  intro s
  simp only [takeReset_status, takeReset_pcon]
  exact ⟨fun c => ⟨takeReset_pc c s, resetStatus_bank c _ s⟩, reset_status_masked, reset_pcon_masked,
    resetStatus_mclr _ s, BitVec.or_comm _ _, rfl, BitVec.or_comm _ _, resetStatus_bod_flags _ s, BitVec.or_comm _ _,
    wdtTimeout_eq s⟩

end Sys2Proof.Machine
end
